-- ==== Sys2Proof/Word.lean ====
section
/-!
DEFINITION. The types of the core's words and fields (00_scope.md R4): bytes, instruction words, register indices,
the sixteen operation codes and the two shift directions. Nothing here computes.
-/

namespace Sys2Proof

/-- An 8-bit value: a general register, an ALU operand or result, an entry of the data store (R4 `XLEN`, `DLEN`). -/
abbrev Byte := BitVec 8

/-- A 16-bit value: an instruction word or a program counter (R4 `ILEN`, `PCW`). -/
abbrev Word := BitVec 16

/-- A register number: a 6-bit field, every value of which names a register (R10). -/
abbrev RegIdx := Fin 64

/-- The opcode field `instr[15:12]` with its codes named (30_encoding.md R56), in the order of the codes 0 to 15. -/
inductive Opcode where
  | add | sub | mul | movi | beqz | andi | eor | br | sal | sar | ldr | str
  | reserved12 | reserved13 | reserved14 | reserved15
  deriving DecidableEq, Repr

/-- Which of the two shifts asks for `SHIFT_NEG` (00_scope.md R5, 42_move_logic_shift.md R115). -/
inductive ShiftOp where
  | sal | sar
  deriving DecidableEq, Repr

end Sys2Proof
end

