-- ==== Sys2Proof/Syntax.lean ====
section
/-!
DEFINITION. The instructions, one constructor for each row of spec/opcode_table.json (30_encoding.md R56 to R58).
Two-register forms carry `rs` and `rt`, register-immediate forms carry `rs` and the signed immediate (R52, R53).
The immediate is an integer, as decision D13 has it; its range -32 to 31 is a check of WellFormed.
-/

namespace Sys2Proof

/-- One constructor for each row of the opcode table. -/
inductive Instr where
  | add (rs rt : RegIdx)
  | sub (rs rt : RegIdx)
  | mul (rs rt : RegIdx)
  | movi (rs : RegIdx) (imm : Int)
  | beqz (rs : RegIdx) (imm : Int)
  | andi (rs : RegIdx) (imm : Int)
  | eor (rs rt : RegIdx)
  | br (rs rt : RegIdx)
  | sal (rs : RegIdx) (imm : Int)
  | sar (rs : RegIdx) (imm : Int)
  | ldr (rs : RegIdx) (imm : Int)
  | str (rs : RegIdx) (imm : Int)
  /-- Opcodes 12 to 15 name no instruction, and a word that carries one is executed all the same (R140); Decode latches
  `rs` and `rt` from it (R57). -/
  | reserved12 (rs rt : RegIdx)
  | reserved13 (rs rt : RegIdx)
  | reserved14 (rs rt : RegIdx)
  | reserved15 (rs rt : RegIdx)
  /-- The all-zero word: no instruction placed here (R58). -/
  | sentinel
  deriving DecidableEq, Repr

end Sys2Proof
end

