-- ==== Sys2Proof/WellFormed.lean ====
section
/-!
DEFINITION. Which instructions a program can contain: an immediate is a signed 6-bit value (30_encoding.md R53), and
`ADD R0 R0` does not exist, because its sixteen bits are the sentinel (R58). Every other combination of fields is
legal (R59).
-/

namespace Sys2Proof

/-- The range of the 6-bit signed immediate (R53). -/
def immInRange (imm : Int) : Bool := decide (-32 ≤ imm) && decide (imm ≤ 31)

/-- The check of one instruction. -/
def Instr.wellFormed : Instr → Bool
  | .add rs rt => !(decide (rs = 0) && decide (rt = 0))
  | .sub _ _ => true
  | .mul _ _ => true
  | .movi _ imm => immInRange imm
  | .beqz _ imm => immInRange imm
  | .andi _ imm => immInRange imm
  | .eor _ _ => true
  | .br _ _ => true
  | .sal _ imm => immInRange imm
  | .sar _ imm => immInRange imm
  | .ldr _ imm => immInRange imm
  | .str _ imm => immInRange imm
  | .reserved12 _ _ => true
  | .reserved13 _ _ => true
  | .reserved14 _ _ => true
  | .reserved15 _ _ => true
  | .sentinel => true

/-- The instruction passes its check. -/
abbrev WellFormed (i : Instr) : Prop := i.wellFormed = true

end Sys2Proof
end

