-- ==== Sys2Proof/Decode.lean ====
section
/-!
DEFINITION. The 16-bit codec (30_encoding.md). Decoding is total on every word and rejects none (R54, R85: "every word
decodes"); the all-zero word decodes to the sentinel, which takes precedence over the ADD row (R58). The encoder
follows the decoder, from the same table.
-/

namespace Sys2Proof

/-! ### The fields of a word -/

/-- The opcode a 4-bit code names (R56). -/
def Opcode.ofBits (b : BitVec 4) : Opcode :=
  match b.toNat with
  | 0 => .add
  | 1 => .sub
  | 2 => .mul
  | 3 => .movi
  | 4 => .beqz
  | 5 => .andi
  | 6 => .eor
  | 7 => .br
  | 8 => .sal
  | 9 => .sar
  | 10 => .ldr
  | 11 => .str
  | 12 => .reserved12
  | 13 => .reserved13
  | 14 => .reserved14
  | _ => .reserved15

/-- The code of an opcode (R56). -/
def Opcode.code : Opcode → Nat
  | .add => 0
  | .sub => 1
  | .mul => 2
  | .movi => 3
  | .beqz => 4
  | .andi => 5
  | .eor => 6
  | .br => 7
  | .sal => 8
  | .sar => 9
  | .ldr => 10
  | .str => 11
  | .reserved12 => 12
  | .reserved13 => 13
  | .reserved14 => 14
  | .reserved15 => 15

/-- The immediate class of R52: opcodes 3, 4, 5, 8, 9, 10 and 11. All others, the reserved ones among them, take the
two-register path (R57, decision D11: log entry 11). -/
def Opcode.immediateClass : Opcode → Bool
  | .movi => true
  | .beqz => true
  | .andi => true
  | .sal => true
  | .sar => true
  | .ldr => true
  | .str => true
  | .add => false
  | .sub => false
  | .mul => false
  | .eor => false
  | .br => false
  | .reserved12 => false
  | .reserved13 => false
  | .reserved14 => false
  | .reserved15 => false

/-- The register a 6-bit index names (R10). -/
def regOfBits (b : BitVec 6) : RegIdx := ⟨b.toNat, b.isLt⟩

/-- `decode_fields` (R54): bits [15:12], [11:6] and [5:0] of a word. -/
def decodeFields (w : Word) : BitVec 4 × BitVec 6 × BitVec 6 :=
  (w.extractLsb' 12 4, w.extractLsb' 6 6, w.extractLsb' 0 6)

/-- `sext6` (00_scope.md section 3): the two's-complement value of a 6-bit field. -/
def sext6 (v : BitVec 6) : Int := v.toInt

/-- The opcode of a word (R51). -/
def opcodeOf (w : Word) : Opcode := Opcode.ofBits (decodeFields w).1

/-- The source register of a word (R51). -/
def rsOf (w : Word) : RegIdx := regOfBits (decodeFields w).2.1

/-- The second register of a word, 0 for the immediate class (R52). -/
def rtOf (w : Word) : RegIdx :=
  if (opcodeOf w).immediateClass then 0 else regOfBits (decodeFields w).2.2

/-- The immediate of a word, 0 outside the immediate class (R52, R53). -/
def immOf (w : Word) : Int :=
  if (opcodeOf w).immediateClass then sext6 (decodeFields w).2.2 else 0

/-! ### From fields to an instruction -/

/-- The instruction that the decoded fields of the decode-execute latch describe (R56): the row is chosen by the opcode
and takes the fields of its form. -/
def Instr.ofFields (op : Opcode) (rs rt : RegIdx) (imm : Int) : Instr :=
  match op with
  | .add => .add rs rt
  | .sub => .sub rs rt
  | .mul => .mul rs rt
  | .movi => .movi rs imm
  | .beqz => .beqz rs imm
  | .andi => .andi rs imm
  | .eor => .eor rs rt
  | .br => .br rs rt
  | .sal => .sal rs imm
  | .sar => .sar rs imm
  | .ldr => .ldr rs imm
  | .str => .str rs imm
  | .reserved12 => .reserved12 rs rt
  | .reserved13 => .reserved13 rs rt
  | .reserved14 => .reserved14 rs rt
  | .reserved15 => .reserved15 rs rt

/-- The instruction of a word (R54, R56, R58). -/
def decode (w : Word) : Instr :=
  if w = 0 then .sentinel else Instr.ofFields (opcodeOf w) (rsOf w) (rtOf w) (immOf w)

/-- The decoder on a table row's bits, numbered as spec/opcode_table.json numbers them. An instruction is one word of
16 bits (R50); bits above `nbits` are 0, and a width that no instruction has gives none (log entry 22). -/
def decodeTableWord (nbits w : Nat) : Option Instr :=
  if 0 < nbits ∧ nbits ≤ 16 then some (decode (BitVec.ofNat 16 (w % 2 ^ nbits))) else none

/-! ### The encoder -/

/-- `encode` (R55): the three fields packed, each masked to its width, an immediate by its value modulo 64 (masking
the opcode is the spec's addition: log entry 23). -/
def encodeFields (opcode rs : Nat) (v : Int) : Word :=
  BitVec.ofNat 4 opcode ++ BitVec.ofNat 6 rs ++ BitVec.ofInt 6 v

/-- The opcode under which an instruction is encoded; the sentinel's bits are those of code 0 (R58). -/
def Instr.opcode : Instr → Opcode
  | .add _ _ => .add
  | .sub _ _ => .sub
  | .mul _ _ => .mul
  | .movi _ _ => .movi
  | .beqz _ _ => .beqz
  | .andi _ _ => .andi
  | .eor _ _ => .eor
  | .br _ _ => .br
  | .sal _ _ => .sal
  | .sar _ _ => .sar
  | .ldr _ _ => .ldr
  | .str _ _ => .str
  | .reserved12 _ _ => .reserved12
  | .reserved13 _ _ => .reserved13
  | .reserved14 _ _ => .reserved14
  | .reserved15 _ _ => .reserved15
  | .sentinel => .add

/-- The word of an instruction (R51, R55, R56). -/
def encode (i : Instr) : Word :=
  match i with
  | .add rs rt => encodeFields i.opcode.code rs.val rt.val
  | .sub rs rt => encodeFields i.opcode.code rs.val rt.val
  | .mul rs rt => encodeFields i.opcode.code rs.val rt.val
  | .movi rs imm => encodeFields i.opcode.code rs.val imm
  | .beqz rs imm => encodeFields i.opcode.code rs.val imm
  | .andi rs imm => encodeFields i.opcode.code rs.val imm
  | .eor rs rt => encodeFields i.opcode.code rs.val rt.val
  | .br rs rt => encodeFields i.opcode.code rs.val rt.val
  | .sal rs imm => encodeFields i.opcode.code rs.val imm
  | .sar rs imm => encodeFields i.opcode.code rs.val imm
  | .ldr rs imm => encodeFields i.opcode.code rs.val imm
  | .str rs imm => encodeFields i.opcode.code rs.val imm
  | .reserved12 rs rt => encodeFields i.opcode.code rs.val rt.val
  | .reserved13 rs rt => encodeFields i.opcode.code rs.val rt.val
  | .reserved14 rs rt => encodeFields i.opcode.code rs.val rt.val
  | .reserved15 rs rt => encodeFields i.opcode.code rs.val rt.val
  | .sentinel => 0

end Sys2Proof
end

