-- ==== Sys2Proof/Config.lean ====
section
/-!
DEFINITION. What is fixed for the machine: the two bounds of 00_scope.md R4, the two quantities the source leaves open,
which 00_scope.md R5 makes parameters of the model, and one signal that R46 leaves open. The parameters have no body:
nothing can be proved about their values, so a claim about them holds for every value.
-/

namespace Sys2Proof.Config

/-- `IBOUND` (R4): the number of entries of the instruction store, and the bound of the program counter. -/
abbrev iBound : Nat := 1024

/-- `DBOUND` (R4): the number of entries of the data store, and the bound of data addresses. -/
abbrev dBound : Nat := 2048

/-- `NOP_RESULT` (R5, decision D2): the 8-bit value from which the flags are computed when an instruction computes no
result. DESIGN CHOICE (log entry 1): a free constant, the spec's own parameter. -/
opaque nopResult : Byte

/-- `SHIFT_NEG` (R5, R115, decision D5): the result of a shift by an amount below 0, from the operation, the operand and
the amount. DESIGN CHOICE (log entry 2): a free function, the spec's own parameter. -/
opaque shiftNeg : ShiftOp → Byte → Int → Byte

/-- What the instruction-ROM port gives at an address while it is not enabled, of which R46 says nothing. DESIGN CHOICE
(log entry 24): a free function, the model's own. Only `State.romPort` uses it. -/
opaque romDisabledData : BitVec 10 → Word

end Sys2Proof.Config
end

