-- ==== Sys2Proof/Machine/State.lean ====
section
/-!
DEFINITION. The state of the core, every piece of it (10_state.md R10 to R20; complete by R15 and R25), and the state
after reset (R23). Plain data throughout.
-/

namespace Sys2Proof.Machine

/-- The five flags of the status register `SREG` (R13), kept as named bits as decision D1 advises; `sregByte` packs them.
-/
structure Flags where
  c : Bool
  v : Bool
  n : Bool
  s : Bool
  z : Bool
  deriving DecidableEq, Repr

/-- The fetch-decode latch `IFID` (R18). -/
structure FetchDecodeLatch where
  instr : Word
  pc : Word
  valid : Bool
  deriving DecidableEq, Repr

/-- The decode-execute latch `IDEX` (R19). The immediate is a signed integer (decision D13: log entry 12). -/
structure DecodeExecuteLatch where
  instr : Word
  pc : Word
  opcode : Opcode
  rs : RegIdx
  rt : RegIdx
  imm : Int
  valRs : Byte
  valRt : Byte
  valid : Bool
  deriving DecidableEq, Repr

/-- The execute shadow record `EXS` (R20). -/
structure ShadowRecord where
  instr : Word
  pc : Word
  valid : Bool
  deriving DecidableEq, Repr

/-- The whole state. The two stores are lists of an index and a value in the canonical form of `Memory.wf`; the
instruction store holds 16-bit words, never bytes (R36). -/
structure State where
  regs : Vector Byte 64
  flags : Flags
  pc : Word
  imem : List (Nat × Word)
  dmem : List Host.Cell
  ifid : FetchDecodeLatch
  idex : DecodeExecuteLatch
  exs : ShadowRecord
  deriving DecidableEq, Repr

/-- Why the machine stops with a fault. EMPTY, and safe: the core raises no fault of any kind (60_exceptions.md R150,
R164), so no meaning and no stage can answer one (log entry 20). -/
inductive Fault where
  deriving DecidableEq, Repr

/-- Why a step has no meaning. -/
inductive Refusal where
  /-- Raised by an arm of `exec` whose instruction has no meaning yet, naming it. Safe: the model stops where the
  hardware goes on. No arm raises it: every row of the opcode table has its meaning. -/
  | notModelled (mnemonic : String)
  deriving DecidableEq, Repr

/-- The state after reset, before the Program Loader fills the instruction store (R23, 70_reset_and_hazards.md R170).
The latches and the shadow record start empty with every field 0 (decision D10: log entry 10). -/
def State.reset : State where
  regs := Vector.replicate 64 0
  flags := { c := false, v := false, n := false, s := false, z := false }
  pc := 0
  imem := []
  dmem := []
  ifid := { instr := 0, pc := 0, valid := false }
  idex := { instr := 0, pc := 0, opcode := .add, rs := 0, rt := 0, imm := 0, valRs := 0, valRt := 0, valid := false }
  exs := { instr := 0, pc := 0, valid := false }

end Sys2Proof.Machine
end

