-- ==== Sys2Proof/Machine/Ops.lean ====
section
/-!
DEFINITION. The named operations over state: the two stores (20_memory.md), the register file (10_state.md R10, R11),
and what every instruction ends in, which is the common path, a flush or an emptied latch (40_pipeline.md R75, R82,
R83). There is no operation that takes an exception or returns from one: the core raises none (60_exceptions.md R150,
R153, R154).
-/

namespace Sys2Proof.Machine

/-! ### A store as a list: strictly rising indices, nothing listed that an unlisted entry already reads as -/

/-- What an entry that is not listed reads as: 0, the reset contents of both stores (R23; log entry 14). -/
def Memory.unlisted {w : Nat} : BitVec w := 0

/-- Entry `a` of a store. -/
def Memory.read {w : Nat} : List (Nat × BitVec w) → Nat → BitVec w
  | [], _ => Memory.unlisted
  | (k, v) :: rest, a => if k = a then v else Memory.read rest a

/-- Puts an entry at its place in the rising order. -/
def Memory.insert {w : Nat} (a : Nat) (v : BitVec w) : List (Nat × BitVec w) → List (Nat × BitVec w)
  | [] => [(a, v)]
  | (k, u) :: rest => if a < k then (a, v) :: (k, u) :: rest else (k, u) :: Memory.insert a v rest

/-- The store with entry `a` replaced by `v`. Writing what an unlisted entry reads as removes the entry. -/
def Memory.write {w : Nat} (m : List (Nat × BitVec w)) (a : Nat) (v : BitVec w) : List (Nat × BitVec w) :=
  if v = Memory.unlisted then m.filter (fun e => e.1 != a) else Memory.insert a v (m.filter (fun e => e.1 != a))

/-- The canonical form from index `lo` on: rising from `lo`, below `size`, and no entry that an unlisted one reads as. -/
def Memory.wfFrom {w : Nat} (size : Nat) : Nat → List (Nat × BitVec w) → Bool
  | _, [] => true
  | lo, (k, v) :: rest => decide (lo ≤ k) && decide (k < size) && (v != Memory.unlisted) && Memory.wfFrom size (k + 1) rest

/-- The canonical form of a store of `size` entries. -/
def Memory.wf {w : Nat} (size : Nat) (m : List (Nat × BitVec w)) : Bool := Memory.wfFrom size 0 m

/-- The store that holds the given values from index `lo` upward and the unlisted value everywhere else. -/
def Memory.ofList {w : Nat} : Nat → List (BitVec w) → List (Nat × BitVec w)
  | _, [] => []
  | lo, v :: rest => if v = Memory.unlisted then Memory.ofList (lo + 1) rest else (lo, v) :: Memory.ofList (lo + 1) rest

/-! ### One field replaced -/

/-- The state with its register file replaced. -/
def State.withRegs (s : State) (x : Vector Byte 64) : State := { s with regs := x }
/-- The state with its flags replaced. -/
def State.withFlags (s : State) (x : Flags) : State := { s with flags := x }
/-- The state with its program counter replaced. -/
def State.withPc (s : State) (x : Word) : State := { s with pc := x }
/-- The state with its instruction store replaced. -/
def State.withImem (s : State) (x : List (Nat × Word)) : State := { s with imem := x }
/-- The state with its data store replaced. -/
def State.withDmem (s : State) (x : List Host.Cell) : State := { s with dmem := x }
/-- The state with its fetch-decode latch replaced. -/
def State.withIfid (s : State) (x : FetchDecodeLatch) : State := { s with ifid := x }
/-- The state with its decode-execute latch replaced. -/
def State.withIdex (s : State) (x : DecodeExecuteLatch) : State := { s with idex := x }
/-- The state with its execute shadow record replaced. -/
def State.withExs (s : State) (x : ShadowRecord) : State := { s with exs := x }

/-! ### Registers -/

/-- Read of `x[r]` (R10). Register 0 reads as 0 (R11). -/
def State.readReg (s : State) (r : RegIdx) : Byte := if r = 0 then 0 else s.regs[r]

/-- `x[r] <- v` (R10). A write to register 0 has no effect (R11). -/
def State.writeReg (s : State) (r : RegIdx) (v : Byte) : State :=
  if r = 0 then s else s.withRegs (s.regs.set r v)

/-! ### Memory accesses -/

/-- An address that names an entry of the data store (R32, R33). A negative address is outside (R34, decision D3: log
entry 4). -/
def dataAddrInRange (addr : Int) : Bool := decide (0 ≤ addr) && decide (addr < Config.dBound)

/-- `MemRead(addr, 1)` (R32): out of range reads as 0x00, with no error. -/
def State.memRead (s : State) (addr : Int) : Byte :=
  if dataAddrInRange addr then Memory.read s.dmem addr.toNat else 0

/-- `MemWrite(addr, 1, v)` (R33): out of range nothing happens, with no error. -/
def State.memWrite (s : State) (addr : Int) (v : Byte) : State :=
  if dataAddrInRange addr then s.withDmem (Memory.write s.dmem addr.toNat v) else s

/-- `IFetch(a)` (R31). -/
def State.ifetch (s : State) (a : Nat) : Word := Memory.read s.imem a

/-! ### Latches and the program counter -/

/-- `IFID.valid <- 0`; the other fields stay (R21, decision D9: log entry 9). -/
def State.invalidateIfid (s : State) : State := s.withIfid { s.ifid with valid := false }

/-- `IDEX.valid <- 0`, as every execution ends (R82); the other fields stay (R21, decision D9: log entry 9). -/
def State.invalidateIdex (s : State) : State := s.withIdex { s.idex with valid := false }

/-- The flush of a taken transfer (R83). -/
def State.flush (s : State) : State := s.invalidateIfid.invalidateIdex

/-- A taken transfer: redirect, flush, early return with no write-back and no flags (R74, R83). -/
def State.redirect (s : State) (target : Word) : State := (s.withPc target).flush

/-- What Fetch does on the sentinel: the program counter is clamped to the bound and no latch is written (R58, R87). -/
def State.endOfProgram (s : State) : State := s.withPc (BitVec.ofNat 16 Config.iBound)

/-! ### The common path -/

/-- The common path with the register write enabled (R75): write-back to the source register, then the flags, then the
emptied latch (R82). The flags are updated even where the write is dropped. -/
def State.finishWrite (s : State) (rs : RegIdx) (result : Byte) (f : Flags) : State :=
  ((s.writeReg rs result).withFlags f).invalidateIdex

/-- The common path with the register write disabled (R75). -/
def State.finishNoWrite (s : State) (f : Flags) : State := (s.withFlags f).invalidateIdex

/-! ### The Program Loader's boundary -/

/-- What the Program Loader leaves (60_exceptions.md R163, 70_reset_and_hazards.md R172, R173): the program's words in
consecutive entries from index 0, at most 1024 of them, every other entry 0x0000 (decision D14: log entry 17). -/
def State.loadProgram (s : State) (program : List Word) : State :=
  s.withImem (Memory.ofList 0 (program.take Config.iBound))

end Sys2Proof.Machine
end

