-- ==== Sys2Proof/Machine/Flags.lean ====
section
/-!
DEFINITION. The flag unit (40_pipeline.md R76 to R81): every flag is recomputed from scratch by one execution, carry
and overflow only for ADD and SUB.
-/

namespace Sys2Proof.Machine

/-- Z (R77). -/
def zeroFlag (result : Byte) : Bool := decide (result = 0)

/-- N (R78): bit 7 of the result. -/
def negativeFlag (result : Byte) : Bool := result.msb

/-- C of ADD (R79): bit 8 of the sum of the operands widened to 9 bits without sign. -/
def carryAdd (op1 op2 : Byte) : Bool := (op1.zeroExtend 9 + op2.zeroExtend 9).getLsbD 8

/-- C of SUB (R79): bit 8 of the difference of the operands widened to 9 bits with their signs. Not a borrow. -/
def carrySub (op1 op2 : Byte) : Bool := (op1.signExtend 9 - op2.signExtend 9).getLsbD 8

/-- V of ADD and of SUB, one formula for both (R80). Not the conventional overflow of a subtraction. -/
def overflowFlag (op1 op2 result : Byte) : Bool := ((op1 ^^^ result) &&& (op2 ^^^ result)).msb

/-- All five flags from a result and the two flags that only ADD and SUB compute; S is N xor V (R76, R81). -/
def flagsOf (c v : Bool) (result : Byte) : Flags where
  c := c
  v := v
  n := negativeFlag result
  s := xor (negativeFlag result) v
  z := zeroFlag result

/-- The flags of ADD (R100). -/
def flagsAdd (op1 op2 result : Byte) : Flags := flagsOf (carryAdd op1 op2) (overflowFlag op1 op2 result) result

/-- The flags of SUB (R101). -/
def flagsSub (op1 op2 result : Byte) : Flags := flagsOf (carrySub op1 op2) (overflowFlag op1 op2 result) result

/-- The flags of every other instruction that updates them (R79, R80: C and V are 0). -/
def flagsLogic (result : Byte) : Flags := flagsOf false false result

/-- The flags after an execution that computes no result (R75): those of the free value `NOP_RESULT` (log entry 1). -/
def flagsNop : Flags := flagsLogic Config.nopResult

/-- `SREG` as a byte, `000CVNSZ` (R14). The positions are PRESUMED by the spec itself (decision D1: log entry 3). -/
def Flags.toByte (f : Flags) : Byte :=
  0#3 ++ BitVec.ofBool f.c ++ BitVec.ofBool f.v ++ BitVec.ofBool f.n ++ BitVec.ofBool f.s ++ BitVec.ofBool f.z

/-- The status register as the State Reporter reads it (60_exceptions.md R163). -/
def State.sregByte (s : State) : Byte := s.flags.toByte

end Sys2Proof.Machine
end

