-- ==== Sys2Proof/Machine/Operands.lean ====
section
/-!
DEFINITION. The operands of Execute (40_pipeline.md R73), the branch targets (44_branch.md) and the two shifts
(42_move_logic_shift.md R113 to R115).
-/

namespace Sys2Proof.Machine

/-- `op1` (R73): the snapshot of the source register. -/
def State.op1 (s : State) : Byte := s.idex.valRs

/-- `op2` of the two-register class (R73): the snapshot of the second register. -/
def State.op2 (s : State) : Byte := s.idex.valRt

/-- `op2` of every other opcode (R73): the immediate modulo 256. -/
def immByte (imm : Int) : Byte := BitVec.ofInt 8 imm

/-- `ShiftLeft` (R113): multiplication by a power of two, modulo 256, for every amount from 0 up (amounts of 8 and more:
decision D4, log entry 5); a negative amount gives the free `SHIFT_NEG` (R115, log entry 2). -/
def shiftLeft (v : Byte) (n : Int) : Byte :=
  if n < 0 then Config.shiftNeg .sal v n else BitVec.ofNat 8 (v.toNat * 2 ^ n.toNat)

/-- `ShiftRightArith` (R114): floor division of the signed operand by a power of two (amounts of 8 and more: decision
D4, log entry 5); a negative amount gives the free `SHIFT_NEG` (R115, log entry 2). -/
def shiftRightArith (v : Byte) (n : Int) : Byte :=
  if n < 0 then Config.shiftNeg .sar v n else BitVec.ofInt 8 (Int.fdiv v.toInt (2 ^ n.toNat))

/-- The target of BEQZ (R130): the branch's own index, plus 1, plus the offset, modulo 65536 (R12; decision D7: log
entry 6). -/
def relativeTarget (branchPc : Word) (imm : Int) : Word := BitVec.ofInt 16 (branchPc.toNat + 1 + imm)

/-- The target of BR (R131): the first operand in the high byte, the second in the low byte. -/
def pairTarget (hi lo : Byte) : Word := hi ++ lo

end Sys2Proof.Machine
end

