-- ==== Sys2Proof/Machine/Arithmetic.lean ====
section
/-!
DEFINITION. ADD, SUB and MUL (41_arithmetic.md). Both operands are the snapshots in the decode-execute latch (R73), so
the number of the second register is not used here. All results wrap modulo 256 (R96, R103).
-/

namespace Sys2Proof.Machine

/-- ADD (R100). -/
def execAdd (rs : RegIdx) (s : State) : Host.Outcome State Fault Refusal :=
  let result := s.op1 + s.op2
  .next (s.finishWrite rs result (flagsAdd s.op1 s.op2 result))

/-- SUB (R101). -/
def execSub (rs : RegIdx) (s : State) : Host.Outcome State Fault Refusal :=
  let result := s.op1 - s.op2
  .next (s.finishWrite rs result (flagsSub s.op1 s.op2 result))

/-- MUL (R102): the low 8 bits of the product. -/
def execMul (rs : RegIdx) (s : State) : Host.Outcome State Fault Refusal :=
  let result := s.op1 * s.op2
  .next (s.finishWrite rs result (flagsLogic result))

end Sys2Proof.Machine
end

