-- ==== Sys2Proof/Machine/Branch.lean ====
section
/-!
DEFINITION. BEQZ and BR (44_branch.md).
-/

namespace Sys2Proof.Machine

/-- BEQZ (R130): the live value of the source register decides; taken redirects and flushes, not taken is a common path
with the write disabled. -/
def execBeqz (rs : RegIdx) (imm : Int) (s : State) : Host.Outcome State Fault Refusal :=
  if s.readReg rs = 0 then .next (s.redirect (relativeTarget s.idex.pc imm)) else .next (s.finishNoWrite flagsNop)

/-- BR (R131): the two snapshots make the target (decision D6: log entry 7). -/
def execBr (s : State) : Host.Outcome State Fault Refusal :=
  .next (s.redirect (pairTarget s.op1 s.op2))

end Sys2Proof.Machine
end

