-- ==== Sys2Proof/Machine/LoadStore.lean ====
section
/-!
DEFINITION. LDR and STR (43_memory_ops.md): the address is the signed immediate and nothing else (R122).
-/

namespace Sys2Proof.Machine

/-- LDR (R120). -/
def execLdr (rs : RegIdx) (imm : Int) (s : State) : Host.Outcome State Fault Refusal :=
  let result := s.memRead imm
  .next (s.finishWrite rs result (flagsLogic result))

/-- STR (R121): the live value of the source register; no register write, no flags. -/
def execStr (rs : RegIdx) (imm : Int) (s : State) : Host.Outcome State Fault Refusal :=
  .next (s.memWrite imm (s.readReg rs)).invalidateIdex

end Sys2Proof.Machine
end

