-- ==== Sys2Proof/Machine/MoveLogicShift.lean ====
section
/-!
DEFINITION. MOVI, ANDI, EOR, SAL and SAR (42_move_logic_shift.md). C and V are 0 and S is N for all five.
-/

namespace Sys2Proof.Machine

/-- MOVI (R110). -/
def execMovi (rs : RegIdx) (imm : Int) (s : State) : Host.Outcome State Fault Refusal :=
  let result := immByte imm
  .next (s.finishWrite rs result (flagsLogic result))

/-- ANDI (R111). -/
def execAndi (rs : RegIdx) (imm : Int) (s : State) : Host.Outcome State Fault Refusal :=
  let result := s.op1 &&& immByte imm
  .next (s.finishWrite rs result (flagsLogic result))

/-- EOR (R112). -/
def execEor (rs : RegIdx) (s : State) : Host.Outcome State Fault Refusal :=
  let result := s.op1 ^^^ s.op2
  .next (s.finishWrite rs result (flagsLogic result))

/-- SAL (R113, R115). -/
def execSal (rs : RegIdx) (imm : Int) (s : State) : Host.Outcome State Fault Refusal :=
  let result := shiftLeft s.op1 imm
  .next (s.finishWrite rs result (flagsLogic result))

/-- SAR (R114, R115). -/
def execSar (rs : RegIdx) (imm : Int) (s : State) : Host.Outcome State Fault Refusal :=
  let result := shiftRightArith s.op1 imm
  .next (s.finishWrite rs result (flagsLogic result))

end Sys2Proof.Machine
end

