-- ==== Sys2Proof/Machine/Reserved.lean ====
section
/-!
DEFINITION. The reserved opcodes 12 to 15, which execute as no-operations that update the flags and write no register
(45_reserved_opcodes.md R140, R141; log entry 11), and the sentinel word, whose effect is Fetch's
(30_encoding.md R58, 40_pipeline.md R87; log entry 15).
-/

namespace Sys2Proof.Machine

/-- Opcode 12 (R140). -/
def execReserved12 (s : State) : Host.Outcome State Fault Refusal := .next (s.finishNoWrite flagsNop)

/-- Opcode 13 (R140). -/
def execReserved13 (s : State) : Host.Outcome State Fault Refusal := .next (s.finishNoWrite flagsNop)

/-- Opcode 14 (R140). -/
def execReserved14 (s : State) : Host.Outcome State Fault Refusal := .next (s.finishNoWrite flagsNop)

/-- Opcode 15 (R140). -/
def execReserved15 (s : State) : Host.Outcome State Fault Refusal := .next (s.finishNoWrite flagsNop)

/-- The all-zero word (R58): never decoded or executed; Fetch, on reading it, ends sequential fetch. -/
def execSentinel (s : State) : Host.Outcome State Fault Refusal := .next s.endOfProgram

end Sys2Proof.Machine
end

