-- ==== Sys2Proof/Machine/Dispatch.lean ====
section
/-!
DEFINITION. One arm for each row of the opcode table (40_pipeline.md R74): the dispatch of Execute on the instruction
that the decode-execute latch holds. The last arm is the sentinel's, which Fetch alone meets.
-/

namespace Sys2Proof.Machine

def exec (i : Instr) (s : State) : Host.Outcome State Fault Refusal :=
  match i with
  | .add rs _ => Sys2Proof.Machine.execAdd rs s
  | .sub rs _ => Sys2Proof.Machine.execSub rs s
  | .mul rs _ => Sys2Proof.Machine.execMul rs s
  | .movi rs imm => Sys2Proof.Machine.execMovi rs imm s
  | .beqz rs imm => Sys2Proof.Machine.execBeqz rs imm s
  | .andi rs imm => Sys2Proof.Machine.execAndi rs imm s
  | .eor rs _ => Sys2Proof.Machine.execEor rs s
  | .br _ _ => Sys2Proof.Machine.execBr s
  | .sal rs imm => Sys2Proof.Machine.execSal rs imm s
  | .sar rs imm => Sys2Proof.Machine.execSar rs imm s
  | .ldr rs imm => Sys2Proof.Machine.execLdr rs imm s
  | .str rs imm => Sys2Proof.Machine.execStr rs imm s
  | .reserved12 _ _ => Sys2Proof.Machine.execReserved12 s
  | .reserved13 _ _ => Sys2Proof.Machine.execReserved13 s
  | .reserved14 _ _ => Sys2Proof.Machine.execReserved14 s
  | .reserved15 _ _ => Sys2Proof.Machine.execReserved15 s
  | .sentinel => Sys2Proof.Machine.execSentinel s

end Sys2Proof.Machine
end

