-- ==== Sys2Proof/Machine/Pipeline.lean ====
section
/-!
DEFINITION. The four sub-steps of a cycle (40_pipeline.md R70 to R72, R85, R87), the two conditions of the machine
(R89, R90), and a program word put where the next cycle runs it.
-/

namespace Sys2Proof.Machine

/-- Step 1 of a cycle (R71): the shadow snapshot, whatever the latch's validity. -/
def State.snapshot (s : State) : State :=
  s.withExs { instr := s.idex.instr, pc := s.idex.pc, valid := s.idex.valid }

/-- The instruction that the fields of the decode-execute latch describe (R74, R84). -/
def DecodeExecuteLatch.instruction (d : DecodeExecuteLatch) : Instr := Instr.ofFields d.opcode d.rs d.rt d.imm

/-- Step 2 of a cycle (R72, R84): nothing if the latch is empty, else the one instruction it holds. -/
def executeStage (s : State) : Host.Outcome State Fault Refusal :=
  if s.idex.valid then exec s.idex.instruction s else .next s

/-- What Decode writes into the decode-execute latch for the word `w` fetched at index `p` (R85), with both registers
read from the register file as it is now. -/
def State.decodedLatch (s : State) (w p : Word) : DecodeExecuteLatch where
  instr := w
  pc := p
  opcode := opcodeOf w
  rs := rsOf w
  rt := rtOf w
  imm := immOf w
  valRs := s.readReg (rsOf w)
  valRt := s.readReg (rtOf w)
  valid := true

/-- Step 3 of a cycle (R85). -/
def State.decodeStage (s : State) : State :=
  if s.ifid.valid then (s.withIdex (s.decodedLatch s.ifid.instr s.ifid.pc)).invalidateIfid else s

/-- Fetch will read the instruction store: the one test of R87, and the enable of the instruction-ROM port (R46). -/
def State.fetchEnabled (s : State) : Bool := decide (s.pc.toNat < Config.iBound)

/-- Step 4 of a cycle (R87). -/
def State.fetchStage (s : State) : State :=
  if s.fetchEnabled then
    if s.ifetch s.pc.toNat = 0 then s.endOfProgram
    else (s.withIfid { instr := s.ifetch s.pc.toNat, pc := s.pc, valid := true }).withPc (s.pc + 1)
  else s

/-- Steps 3 and 4 on the state that Execute left (R70). -/
def State.frontEnd (s : State) : State := s.decodeStage.fetchStage

/-- `Terminated` (R90). "Reached the bound" is `pc >= 1024` (decision D8: log entry 8). -/
def State.terminated (s : State) : Bool :=
  !s.exs.valid && !s.ifid.valid && !s.idex.valid && !s.fetchEnabled

/-- Idle (R89). -/
def State.idle (s : State) : Bool := !s.ifid.valid && !s.idex.valid && !s.fetchEnabled

/-- The state with a program word placed where Fetch reads next (index 0 if the counter is beyond the store), both
latches empty. -/
def State.placeWord (s : State) (w : Word) : State :=
  let a := if s.fetchEnabled then s.pc else 0
  ((s.withPc a).withImem (Memory.write s.imem a.toNat w)).flush

/-- The state in which the very next cycle runs the word `w` (log entry 16): the sentinel is left for that cycle's
Fetch; any other word is taken by the front end through both latches, as two cycles with nothing in flight before it
would take it. -/
def State.readyToRun (s : State) (w : Word) : State :=
  if w = 0 then s.placeWord w else (s.placeWord w).fetchStage.frontEnd

end Sys2Proof.Machine
end

