-- ==== Sys2Proof/Machine/Step.lean ====
section
/-!
DEFINITION. One cycle (40_pipeline.md R70): shadow snapshot, Execute, Decode, Fetch, each on the state the one before
left. The reset input of the hardware reading (70_reset_and_hazards.md R170) and a word placed for the next cycle
stand beside it.
-/

namespace Sys2Proof.Machine

/-- `Step` (R70). Every application is one clock cycle of the hardware (R9). -/
def step (s : State) : Host.Outcome State Fault Refusal :=
  match executeStage s.snapshot with
  | .next t => .next t.frontEnd
  | .fault f => .fault f
  | .refused r => .refused r

/-- One clock edge with the reset input (R170, decision D12: log entry 18): reset loads the reset state in place of
Step's result. -/
def clockEdge (resetAsserted : Bool) (s : State) : Host.Outcome State Fault Refusal :=
  if resetAsserted then .next State.reset else step s

/-- `s` with the instruction whose bits are `w` placed so that the next step runs it (log entry 16). An instruction is
one word of 16 bits; bits above `nbits` are 0. -/
def State.withFetchWord (s : State) (nbits w : Nat) : State :=
  s.readyToRun (BitVec.ofNat 16 (w % 2 ^ nbits))

end Sys2Proof.Machine
end

