-- ==== Sys2Proof/Machine/Ports.lean ====
section
/-!
DEFINITION. The signals of the two memory ports of the hardware reading (20_memory.md R46, decision D12: log entry 18),
read data included. Nothing of Step depends on them. What R46 leaves open about a signal is the model's choice (log
entry 24).
-/

namespace Sys2Proof.Machine

/-- The instruction-ROM read port as Fetch drives it, on the state Decode left: the enable, the address `pc[9:0]`, and
the word of the combinational read. -/
structure RomPort where
  enable : Bool
  addr : BitVec 10
  readData : Word
  deriving DecidableEq, Repr

/-- The data-RAM port as Execute drives it: an 11-bit address, the write enable after the range test, the byte to be
written, and the byte of the combinational read as the core takes it, after the range test. `readEnable` is the model's
own signal and no line of R46's port, which has a write enable alone. DESIGN CHOICE (log entry 24): it names the "read"
of R46's "at most one of read and write is active in a cycle". -/
structure RamPort where
  addr : BitVec 11
  readEnable : Bool
  writeEnable : Bool
  writeData : Byte
  readData : Byte
  deriving DecidableEq, Repr

/-- The instruction-ROM port of R46. DESIGN CHOICE (log entry 24): while the port is not enabled its data are a free
value, since R46 does not say what they are. -/
def State.romPort (s : State) : RomPort :=
  let addr := s.pc.extractLsb' 0 10
  { enable := s.fetchEnabled
    addr := addr
    readData := if s.fetchEnabled then s.ifetch addr.toNat else Config.romDisabledData addr }

/-- The data-RAM port of R46 in the cycle that starts in `s`. The write enable is 0 and the read data are 0x00 for an
immediate outside 0 to 2047. DESIGN CHOICE (log entry 24), since R46 does not say: in every cycle, also in one without
an access and for an immediate out of range, the address is the low 11 bits of `IDEX.imm`, the write data are the live
`x[IDEX.rs]`, and the read data follow the address; `readEnable` is off for an LDR out of range. -/
def State.ramPort (s : State) : RamPort :=
  let addr := BitVec.ofInt 11 s.idex.imm
  let inRange := dataAddrInRange s.idex.imm
  { addr := addr
    readEnable := s.idex.valid && decide (s.idex.opcode = .ldr) && inRange
    writeEnable := s.idex.valid && decide (s.idex.opcode = .str) && inRange
    writeData := s.readReg s.idex.rs
    readData := if inRange then Memory.read s.dmem addr.toNat else 0 }

end Sys2Proof.Machine
end

