-- ==== Sys2Proof/Machine/Sequential.lean ====
section
/-!
DEFINITION. The machine that executes one instruction at a time in program order, which 40_pipeline.md R93 (c) says the
pipeline's architecturally visible behaviour equals. A reference for claims, not part of the core: it uses live register
values and no latch, and its `pc` is the index of the instruction it executes (log entry 21).
-/

namespace Sys2Proof.Machine

/-- The program counter moved to the next instruction. -/
def State.advance (s : State) : State := s.withPc (s.pc + 1)

/-- One instruction on live values, all of its effect, the program counter moved past it or to its target. -/
def State.sequentialExec (s : State) (i : Instr) : State :=
  match i with
  | .add rs rt =>
    let a := s.readReg rs; let b := s.readReg rt
    ((s.writeReg rs (a + b)).withFlags (flagsAdd a b (a + b))).advance
  | .sub rs rt =>
    let a := s.readReg rs; let b := s.readReg rt
    ((s.writeReg rs (a - b)).withFlags (flagsSub a b (a - b))).advance
  | .mul rs rt =>
    let r := s.readReg rs * s.readReg rt
    ((s.writeReg rs r).withFlags (flagsLogic r)).advance
  | .movi rs imm =>
    ((s.writeReg rs (immByte imm)).withFlags (flagsLogic (immByte imm))).advance
  | .beqz rs imm =>
    if s.readReg rs = 0 then s.withPc (relativeTarget s.pc imm) else (s.withFlags flagsNop).advance
  | .andi rs imm =>
    let r := s.readReg rs &&& immByte imm
    ((s.writeReg rs r).withFlags (flagsLogic r)).advance
  | .eor rs rt =>
    let r := s.readReg rs ^^^ s.readReg rt
    ((s.writeReg rs r).withFlags (flagsLogic r)).advance
  | .br rs rt => s.withPc (pairTarget (s.readReg rs) (s.readReg rt))
  | .sal rs imm =>
    let r := shiftLeft (s.readReg rs) imm
    ((s.writeReg rs r).withFlags (flagsLogic r)).advance
  | .sar rs imm =>
    let r := shiftRightArith (s.readReg rs) imm
    ((s.writeReg rs r).withFlags (flagsLogic r)).advance
  | .ldr rs imm =>
    ((s.writeReg rs (s.memRead imm)).withFlags (flagsLogic (s.memRead imm))).advance
  | .str rs imm => (s.memWrite imm (s.readReg rs)).advance
  | .reserved12 _ _ => (s.withFlags flagsNop).advance
  | .reserved13 _ _ => (s.withFlags flagsNop).advance
  | .reserved14 _ _ => (s.withFlags flagsNop).advance
  | .reserved15 _ _ => (s.withFlags flagsNop).advance
  | .sentinel => s.endOfProgram

/-- One step of the sequential machine: nothing beyond the store, else the instruction at `pc`. -/
def State.sequentialStep (s : State) : State :=
  if s.fetchEnabled then s.sequentialExec (decode (s.ifetch s.pc.toNat)) else s

/-- A counter that stands at the sentinel, moved to the bound as Fetch would move it (R87). -/
def State.settled (s : State) : State :=
  if s.fetchEnabled ∧ s.ifetch s.pc.toNat = 0 then s.endOfProgram else s

/-- The index of the oldest instruction not yet executed: in `IDEX`, else in `IFID`, else the next one fetched. -/
def State.oldestPc (s : State) : Word :=
  if s.idex.valid then s.idex.pc else if s.ifid.valid then s.ifid.pc else s.pc

/-- What of a pipeline state a program can see, in program order: registers, flags, stores, and the counter at the oldest
instruction not yet executed; the latches and the shadow record empty. -/
def State.programView (s : State) : State :=
  (((s.withPc s.oldestPc).withIfid State.reset.ifid).withIdex State.reset.idex).withExs State.reset.exs |>.settled

end Sys2Proof.Machine
end

