-- ==== Sys2Proof/Safety.lean ====
section
/-!
DEFINITION. The terms claims use: what a step may leave unchanged, the transfer a cycle takes, and the invariant of the
machine. Nothing here is part of a step.
-/

namespace Sys2Proof.Machine

/-! ### Frames -/

/-- Every register reads as before. -/
def SameRegisters (s t : State) : Prop := ∀ r : RegIdx, t.readReg r = s.readReg r

/-- Register `rs` takes `v`, register 0 keeps reading as it did, and every other register reads as before (R10, R11). -/
def RegisterWritten (s t : State) (rs : RegIdx) (v : Byte) : Prop :=
  ∀ r : RegIdx, t.readReg r = if r = rs ∧ r ≠ 0 then v else s.readReg r

/-- Every data address and every index of the instruction store reads as before. -/
def SameMemory (s t : State) : Prop :=
  (∀ a : Int, t.memRead a = s.memRead a) ∧ ∀ a : Nat, t.ifetch a = s.ifetch a

/-- The program counter, the fetch-decode latch and the shadow record are as before. -/
def SameFront (s t : State) : Prop := t.pc = s.pc ∧ t.ifid = s.ifid ∧ t.exs = s.exs

/-- What an execution on the common path leaves alone besides registers and flags, and that it empties its latch (R75,
R82). -/
def CommonPathFrame (s t : State) : Prop := SameMemory s t ∧ SameFront s t ∧ t.idex.valid = false

/-- What a taken transfer does besides writing the counter: both latches are emptied and nothing else that a program or
the reporter may read changes (R83). -/
def TransferFrame (s t : State) : Prop :=
  SameRegisters s t ∧ SameMemory s t ∧ t.flags = s.flags ∧ t.exs = s.exs ∧ t.ifid.valid = false ∧ t.idex.valid = false

/-- The flags of a result where C and V are not computed: C and V clear, Z and N from the result, S equal to N (R77 to
R81). -/
def ResultFlags (f : Flags) (result : Byte) : Prop :=
  f.c = false ∧ f.v = false ∧ (f.n = true ↔ 128 ≤ result.toNat) ∧ f.s = f.n ∧ (f.z = true ↔ result.toNat = 0)

/-! ### The transfer of a cycle -/

/-- The address a cycle that starts in `s` transfers to: that of BR, or of BEQZ on a register that is 0 (R130, R131). -/
def State.transferTarget (s : State) : Option Word :=
  if s.idex.valid = true ∧ s.idex.opcode = .br then some (pairTarget s.op1 s.op2)
  else if s.idex.valid = true ∧ s.idex.opcode = .beqz ∧ s.readReg s.idex.rs = 0 then
    some (relativeTarget s.idex.pc s.idex.imm)
  else none

/-- The counter that the Fetch of a cycle starting in `s` uses: the transfer's target, if any (R70, R95). -/
def State.fetchPc (s : State) : Word := s.transferTarget.getD s.pc

/-! ### The invariant -/

/-- Register 0's cell holds 0 (R11). -/
def State.RegZeroClear (s : State) : Prop := s.regs[0] = 0

/-- Both stores are in canonical form. -/
def State.StoresCanonical (s : State) : Prop :=
  Memory.wf Config.iBound s.imem = true ∧ Memory.wf Config.dBound s.dmem = true

/-- A valid decode-execute latch holds the decoding of its word, and its two snapshots are what the registers read now
(R85, R93). -/
def State.SnapshotCurrent (s : State) : Prop :=
  s.idex.valid = true → s.idex = s.decodedLatch s.idex.instr s.idex.pc

/-- A word in flight was read from the instruction store at the index it carries, and is not the sentinel (R87). -/
def State.PlacedAt (s : State) (w p : Word) : Prop :=
  p.toNat < 1024 ∧ s.ifetch p.toNat = w ∧ w ≠ 0

/-- Every valid latch, and a valid shadow record, holds a word of the program (R87). -/
def State.InFlightPlaced (s : State) : Prop :=
  (s.ifid.valid = true → s.PlacedAt s.ifid.instr s.ifid.pc) ∧
  (s.idex.valid = true → s.PlacedAt s.idex.instr s.idex.pc) ∧
  (s.exs.valid = true → s.PlacedAt s.exs.instr s.exs.pc)

/-- What is in flight is consecutive: IFID holds the word just before the counter, IDEX the word just before IFID's; and
where IDEX is valid with IFID empty, Fetch has run into the bound or the sentinel (R87, R88, R94). -/
def State.InFlightConsecutive (s : State) : Prop :=
  (s.ifid.valid = true → s.pc = s.ifid.pc + 1) ∧
  (s.idex.valid = true → s.ifid.valid = true → s.ifid.pc = s.idex.pc + 1) ∧
  (s.idex.valid = true → s.ifid.valid = false →
    s.pc = 1024 ∧ (s.idex.pc + 1 = 1024 ∨ s.ifetch (s.idex.pc + 1).toNat = 0))

/-- The invariant of the machine: it holds at reset and every step keeps it. -/
structure State.Inv (s : State) : Prop where
  regZero : s.RegZeroClear
  stores : s.StoresCanonical
  snapshot : s.SnapshotCurrent
  placed : s.InFlightPlaced
  consecutive : s.InFlightConsecutive

end Sys2Proof.Machine
end

