-- ==== Sys2Proof/Certificates/Slice0/Obligations.lean ====
section
/-!
DEFINITION. The statements for the provers, from the spec's numbered rules. An effect statement has as its conclusion
that `exec` answers a next state and what that state holds, its frame included. "Derived" in a docstring means that a
clause rests on a decision of the spec or of the model, which the docstring names.
-/

open Sys2Proof Sys2Proof.Machine

/-! ### The codec -/

/-- The worked encodings of 30_encoding.md R63 and of 95_test_vectors.md section 2, one word of each family, decode to
the instructions they stand for. -/
def Obligations.WorkedWordsDecode : Prop :=
  ∀ p ∈ ([(0x0042, .add 1 2), (0x1081, .sub 2 1), (0x2042, .mul 1 2), (0x3060, .movi 1 (-32)), (0x407E, .beqz 1 (-2)),
      (0x5070, .andi 1 (-16)), (0x60C1, .eor 3 1), (0x7042, .br 1 2), (0x80C2, .sal 3 2), (0x9FE0, .sar 63 (-32)),
      (0xA08A, .ldr 2 10), (0xB04A, .str 1 10), (0xC041, .reserved12 1 1), (0x0005, .add 0 5), (0x0000, .sentinel)] :
      List (Word × Instr)), decode p.1 = p.2 ∧ encode p.2 = p.1

/-- R63, both laws, on all operands: fields survive packing modulo their widths, a word survives unpacking, and an
immediate in range survives its field. Derived: R63 is the spec's inference from R54 and R55, and the mask on the opcode
is the spec's addition (log entry 23). -/
def Obligations.FieldCodecRoundTrip : Prop :=
  (∀ (opcode rs : Nat) (v : Int),
    decodeFields (encodeFields opcode rs v) = (BitVec.ofNat 4 opcode, BitVec.ofNat 6 rs, BitVec.ofInt 6 v)) ∧
  (∀ w : Word,
    encodeFields (decodeFields w).1.toNat (decodeFields w).2.1.toNat (decodeFields w).2.2.toNat = w) ∧
  ∀ (opcode rs : Nat) (i : Int), -32 ≤ i → i ≤ 31 → sext6 (decodeFields (encodeFields opcode rs i)).2.2 = i

/-- Decoding the word of a well-formed instruction gives it back, with every operand at every value (R51 to R59). -/
def Obligations.DecodeEncodeInstruction : Prop := ∀ i : Instr, WellFormed i → decode (encode i) = i

/-- Every word decodes to a well-formed instruction whose word it is: no two instructions share a word and no bit is
dropped (R54, R58, R59). -/
def Obligations.EncodeDecodeWord : Prop := ∀ w : Word, WellFormed (decode w) ∧ encode (decode w) = w

/-- R52 and R53 on the valid opcodes 0 to 11: the opcode alone decides whether the low six bits are a signed immediate
(with the second register 0) or a register index (with the immediate 0). -/
def Obligations.OpcodeDecidesTheForm : Prop :=
  ∀ w : Word, w.toNat / 4096 < 12 →
    (opcodeOf w).code = w.toNat / 4096 ∧ (rsOf w).val = w.toNat / 64 % 64 ∧
    if w.toNat / 4096 ∈ [3, 4, 5, 8, 9, 10, 11] then
      (rtOf w).val = 0 ∧ immOf w = if w.toNat % 64 < 32 then ((w.toNat % 64 : Nat) : Int) else (w.toNat % 64 : Nat) - 64
    else (rtOf w).val = w.toNat % 64 ∧ immOf w = 0

/-- The reserved opcodes 12 to 15 take the two-register path at Decode. Derived: the spec's decision D11 (R57; log entry
11). -/
def Obligations.ReservedOpcodesDecodeAsRegisters : Prop :=
  ∀ w : Word, 12 ≤ w.toNat / 4096 →
    (opcodeOf w).code = w.toNat / 4096 ∧ (rsOf w).val = w.toNat / 64 % 64 ∧ (rtOf w).val = w.toNat % 64 ∧ immOf w = 0

/-- R58: the all-zero word is the sentinel and no other word is; Fetch never latches it. -/
def Obligations.SentinelIsNeverLatched : Prop :=
  (∀ w : Word, decode w = .sentinel ↔ w = 0) ∧
  ∀ s t : State, step s = .next t → t.ifid.valid = true → t.ifid.instr ≠ 0

/-! ### Reset and loading -/

/-- R23 and R170: what the reset input leaves, from any state. Derived: the latches' values are the spec's decision D10
(log entry 10), the reset input its decision D12 (log entry 18). -/
def Obligations.ResetValues : Prop :=
  ∀ s : State, ∃ t, clockEdge true s = .next t ∧ (∀ r : RegIdx, t.readReg r = 0) ∧ t.regs[0] = 0 ∧ t.sregByte = 0 ∧
    t.pc = 0 ∧ (∀ a : Nat, t.ifetch a = 0) ∧ (∀ a : Int, t.memRead a = 0) ∧
    t.ifid.valid = false ∧ t.idex.valid = false ∧ t.exs.valid = false ∧ t.terminated = false

/-- The invariant holds at reset. -/
def Obligations.ResetMeetsInvariant : Prop := State.reset.Inv

/-- The invariant holds at reset with any program loaded, of any length (R172, R173). -/
def Obligations.LoadedProgramMeetsInvariant : Prop := ∀ program : List Word, (State.reset.loadProgram program).Inv

/-- R172 and R173: the loader puts the program's words in consecutive entries from index 0, leaves every other entry
0x0000, and touches nothing else. Derived: the placement is the spec's decision D14 (log entry 17). -/
def Obligations.LoaderPlacesTheProgram : Prop :=
  ∀ (s : State) (program : List Word),
    (∀ a : Nat, (s.loadProgram program).ifetch a = if a < 1024 then program.getD a 0 else 0) ∧
    { s.loadProgram program with imem := s.imem } = s

/-! ### Arithmetic: what each instruction does, and what it leaves -/

/-- R100. Encoding (the word of `ADD R0 R0` is the sentinel), result, all five flags, frame. -/
def Obligations.AddEffect : Prop :=
  (∀ rs rt : RegIdx, decode (encodeFields 0 rs.val rt.val) = if rs = 0 ∧ rt = 0 then .sentinel else .add rs rt) ∧
  ∀ (s : State) (rs rt : RegIdx), ∃ t, exec (.add rs rt) s = .next t ∧
    let a := s.op1
    let b := s.op2
    let r : Byte := BitVec.ofNat 8 (a.toNat + b.toNat)
    RegisterWritten s t rs r ∧
    (t.flags.z = true ↔ r = 0) ∧ t.flags.n = r.msb ∧ (t.flags.c = true ↔ 256 ≤ a.toNat + b.toNat) ∧
    (t.flags.v = true ↔ a.msb = b.msb ∧ r.msb ≠ a.msb) ∧ t.flags.s = xor t.flags.n t.flags.v ∧
    CommonPathFrame s t

/-- R101. C is a signed less-than, not a borrow; V is the addition formula, not the overflow of a subtraction. -/
def Obligations.SubEffect : Prop :=
  (∀ rs rt : RegIdx, decode (encodeFields 1 rs.val rt.val) = .sub rs rt) ∧
  ∀ (s : State) (rs rt : RegIdx), ∃ t, exec (.sub rs rt) s = .next t ∧
    let a := s.op1
    let b := s.op2
    let r : Byte := BitVec.ofInt 8 (a.toNat - b.toNat)
    RegisterWritten s t rs r ∧
    (t.flags.z = true ↔ r = 0) ∧ t.flags.n = r.msb ∧ (t.flags.c = true ↔ a.toInt < b.toInt) ∧
    (t.flags.v = true ↔
      (a.toNat ≤ 127 ∧ b.toNat ≤ 127 ∧ a.toNat < b.toNat) ∨ (128 ≤ a.toNat ∧ 128 ≤ b.toNat ∧ b.toNat ≤ a.toNat)) ∧
    t.flags.s = xor t.flags.n t.flags.v ∧ CommonPathFrame s t

/-- R102: the low 8 bits of the product; a lost high byte is not signalled. -/
def Obligations.MulEffect : Prop :=
  (∀ rs rt : RegIdx, decode (encodeFields 2 rs.val rt.val) = .mul rs rt) ∧
  ∀ (s : State) (rs rt : RegIdx), ∃ t, exec (.mul rs rt) s = .next t ∧
    let r : Byte := BitVec.ofNat 8 (s.op1.toNat * s.op2.toNat)
    RegisterWritten s t rs r ∧ ResultFlags t.flags r ∧ CommonPathFrame s t

/-! ### Move, logic, shift -/

/-- R110, with the values a MOVI can load. -/
def Obligations.MoviEffect : Prop :=
  (∀ (rs : RegIdx) (imm : Int), -32 ≤ imm → imm ≤ 31 → decode (encodeFields 3 rs.val imm) = .movi rs imm) ∧
  (∀ imm : Int, -32 ≤ imm → imm ≤ 31 → (immByte imm).toNat ≤ 31 ∨ 224 ≤ (immByte imm).toNat) ∧
  ∀ (s : State) (rs : RegIdx) (imm : Int), ∃ t, exec (.movi rs imm) s = .next t ∧
    RegisterWritten s t rs (BitVec.ofInt 8 imm) ∧ ResultFlags t.flags (BitVec.ofInt 8 imm) ∧ CommonPathFrame s t

/-- R111: the immediate is sign-extended, so a non-negative one clears bits 7 to 5 and a negative one keeps them. -/
def Obligations.AndiEffect : Prop :=
  (∀ (rs : RegIdx) (imm : Int), -32 ≤ imm → imm ≤ 31 → decode (encodeFields 5 rs.val imm) = .andi rs imm) ∧
  ∀ (s : State) (rs : RegIdx) (imm : Int), ∃ t, exec (.andi rs imm) s = .next t ∧
    let r : Byte := s.op1 &&& BitVec.ofInt 8 imm
    RegisterWritten s t rs r ∧ ResultFlags t.flags r ∧ CommonPathFrame s t ∧
    (0 ≤ imm → imm ≤ 31 → r.toNat < 32) ∧ (-32 ≤ imm → imm < 0 → r.toNat / 32 = s.op1.toNat / 32)

/-- R112. -/
def Obligations.EorEffect : Prop :=
  (∀ rs rt : RegIdx, decode (encodeFields 6 rs.val rt.val) = .eor rs rt) ∧
  ∀ (s : State) (rs rt : RegIdx), ∃ t, exec (.eor rs rt) s = .next t ∧
    let r : Byte := s.op1 ^^^ s.op2
    RegisterWritten s t rs r ∧ ResultFlags t.flags r ∧ CommonPathFrame s t ∧
    ∀ i < 8, r.getLsbD i = xor (s.op1.getLsbD i) (s.op2.getLsbD i)

/-- R113 and R115. Derived: amounts of 8 and more are the spec's decision D4 (log entry 5); a negative amount writes the
free value of decision D5 (log entry 2), whatever it is, and sets the flags from it. -/
def Obligations.SalEffect : Prop :=
  (∀ (rs : RegIdx) (imm : Int), -32 ≤ imm → imm ≤ 31 → decode (encodeFields 8 rs.val imm) = .sal rs imm) ∧
  ∀ (s : State) (rs : RegIdx) (imm : Int), ∃ t, exec (.sal rs imm) s = .next t ∧
    let r : Byte :=
      if imm < 0 then Config.shiftNeg .sal s.op1 imm else if imm < 8 then s.op1 <<< imm.toNat else 0
    RegisterWritten s t rs r ∧ ResultFlags t.flags r ∧ CommonPathFrame s t

/-- R114 and R115: the sign fills the vacated bits. Derived: amounts of 8 and more are the spec's decision D4 (log entry
5); a negative amount writes the free value of decision D5 (log entry 2), whatever it is, and sets the flags from it. -/
def Obligations.SarEffect : Prop :=
  (∀ (rs : RegIdx) (imm : Int), -32 ≤ imm → imm ≤ 31 → decode (encodeFields 9 rs.val imm) = .sar rs imm) ∧
  ∀ (s : State) (rs : RegIdx) (imm : Int), ∃ t, exec (.sar rs imm) s = .next t ∧
    let r : Byte :=
      if imm < 0 then Config.shiftNeg .sar s.op1 imm
      else if imm < 8 then s.op1.sshiftRight imm.toNat
      else if s.op1.msb then 0xFF else 0
    RegisterWritten s t rs r ∧ ResultFlags t.flags r ∧ CommonPathFrame s t

/-! ### Memory -/

/-- R120: the entry at the immediate, 0x00 out of range, with no error. Derived: a negative address is out of range by
the spec's decision D3 (R34; log entry 4). -/
def Obligations.LdrEffect : Prop :=
  (∀ (rs : RegIdx) (imm : Int), -32 ≤ imm → imm ≤ 31 → decode (encodeFields 10 rs.val imm) = .ldr rs imm) ∧
  ∀ (s : State) (rs : RegIdx) (imm : Int), ∃ t, exec (.ldr rs imm) s = .next t ∧
    let r : Byte := if 0 ≤ imm ∧ imm ≤ 2047 then Memory.read s.dmem imm.toNat else 0
    RegisterWritten s t rs r ∧ ResultFlags t.flags r ∧ CommonPathFrame s t

/-- R121: the live register goes to the entry at the immediate and every other address reads as before; out of range
nothing is stored, with no error; no register and no flag changes. Derived: a negative address is out of range by the
spec's decision D3 (R34; log entry 4). -/
def Obligations.StrEffect : Prop :=
  (∀ (rs : RegIdx) (imm : Int), -32 ≤ imm → imm ≤ 31 → decode (encodeFields 11 rs.val imm) = .str rs imm) ∧
  ∀ (s : State) (rs : RegIdx) (imm : Int), ∃ t, exec (.str rs imm) s = .next t ∧
    (∀ a : Int, t.memRead a = if a = imm ∧ 0 ≤ imm ∧ imm ≤ 2047 then s.readReg rs else s.memRead a) ∧
    SameRegisters s t ∧ t.flags = s.flags ∧ (∀ a : Nat, t.ifetch a = s.ifetch a) ∧ SameFront s t ∧
    t.idex.valid = false

/-- R41 (2) and the source's round trip (95_test_vectors.md S7), for every address: a load after a store to the address
gives the value stored if the address names an entry, and 0x00 if it does not. Derived: with decision D3 (log entry 4). -/
def Obligations.LoadSeesTheStore : Prop :=
  ∀ (s : State) (rs rd : RegIdx) (a : Int), ∃ t u, exec (.str rs a) s = .next t ∧ exec (.ldr rd a) t = .next u ∧
    u.readReg rd = if rd = 0 then 0 else if 0 ≤ a ∧ a ≤ 2047 then s.readReg rs else 0

/-! ### Control transfer, reserved words, the sentinel -/

/-- R130. Taken on a register that reads 0: the counter takes the branch's own index plus 1 plus the offset, both latches
are emptied, nothing else changes. Not taken: no register write, flags of the free `NOP_RESULT`, counter and IFID kept.
Derived: a target below 0 wraps by the spec's decision D7 (log entry 6), and `NOP_RESULT` is its decision D2 (log entry
1). -/
def Obligations.BeqzEffect : Prop :=
  (∀ (rs : RegIdx) (imm : Int), -32 ≤ imm → imm ≤ 31 → decode (encodeFields 4 rs.val imm) = .beqz rs imm) ∧
  ∀ (s : State) (rs : RegIdx) (imm : Int), ∃ t, exec (.beqz rs imm) s = .next t ∧
    if s.readReg rs = 0 then
      (t.pc.toNat : Int) = (s.idex.pc.toNat + 1 + imm) % 65536 ∧ TransferFrame s t
    else SameRegisters s t ∧ ResultFlags t.flags Config.nopResult ∧ CommonPathFrame s t

/-- R131: the counter takes the first operand in its high byte and the second in its low byte; both latches are emptied,
nothing else changes. Derived: the operands are the snapshots by the spec's decision D6 (log entry 7). -/
def Obligations.BrEffect : Prop :=
  (∀ rs rt : RegIdx, decode (encodeFields 7 rs.val rt.val) = .br rs rt) ∧
  ∀ (s : State) (rs rt : RegIdx), ∃ t, exec (.br rs rt) s = .next t ∧
    t.pc.toNat = s.op1.toNat * 256 + s.op2.toNat ∧ TransferFrame s t

/-- R140: all four reserved opcodes write no register and rewrite the flags, as any instruction with no result does.
Derived: the flags are those of the free `NOP_RESULT`, the spec's decision D2 (log entry 1). -/
def Obligations.ReservedEffect : Prop :=
  ∀ (s : State) (rs rt : RegIdx), ∀ i ∈ [Instr.reserved12 rs rt, .reserved13 rs rt, .reserved14 rs rt, .reserved15 rs rt],
    ∃ t, exec i s = .next t ∧ SameRegisters s t ∧ ResultFlags t.flags Config.nopResult ∧ CommonPathFrame s t

/-- R58 and R87: the sentinel's effect is the clamp of the counter to the bound and nothing else, and it is what Fetch
does on reading the all-zero word. Derived: that the table's SENTINEL row stands for Fetch's effect is the model's choice
(log entry 15). -/
def Obligations.SentinelEffect : Prop :=
  ∀ s : State, ∃ t, exec .sentinel s = .next t ∧ t.pc.toNat = 1024 ∧ SameRegisters s t ∧ t.flags = s.flags ∧
    SameMemory s t ∧ t.ifid = s.ifid ∧ t.idex = s.idex ∧ t.exs = s.exs ∧
    (s.pc.toNat < 1024 → s.ifetch s.pc.toNat = 0 → s.fetchStage = t)

/-! ### The cycle -/

/-- A step runs the decoded instruction: where the decode-execute latch is what Decode makes of a word of the program,
the step is `exec` of the decoded word on the snapshot, then Decode and Fetch; where it is empty, the snapshot, Decode
and Fetch alone (R70, R72). -/
def Obligations.StepRunsTheLatchedWord : Prop :=
  (∀ (s : State) (w p : Word), w ≠ 0 → s.idex = s.decodedLatch w p →
    ∃ t, exec (decode w) s.snapshot = .next t ∧ step s = .next t.frontEnd) ∧
  ∀ s : State, s.idex.valid = false → step s = .next s.snapshot.frontEnd

/-- R94: the word at the program counter, with nothing in flight before it, is in IFID after one step and in IDEX after
two, so that the third step runs it. -/
def Obligations.WordAtTheCounterRunsInTheThirdCycle : Prop :=
  ∀ s : State, s.ifid.valid = false → s.idex.valid = false → s.pc.toNat < 1024 → s.ifetch s.pc.toNat ≠ 0 →
    ∃ t u v, step s = .next t ∧ t.ifid = { instr := s.ifetch s.pc.toNat, pc := s.pc, valid := true } ∧
      step t = .next u ∧ u.idex = u.decodedLatch (s.ifetch s.pc.toNat) s.pc ∧
      exec (decode (s.ifetch s.pc.toNat)) u.snapshot = .next v ∧ step u = .next v.frontEnd

/-- R92, R94: a word in IFID is decoded in the next cycle unless that cycle takes a transfer, and its snapshots are of
the registers as that cycle's Execute left them. -/
def Obligations.DecodeReadsWhatExecuteWrote : Prop :=
  ∀ s t : State, s.ifid.valid = true → s.transferTarget = none → step s = .next t →
    t.idex = t.decodedLatch s.ifid.instr s.ifid.pc ∧ t.idex.valRs = t.readReg (rsOf s.ifid.instr)

/-- R71: after every cycle the shadow record holds what the decode-execute latch held at its start, whatever that
latch's validity, and nothing done later in the cycle changes it. -/
def Obligations.ShadowHoldsTheLatchOfTheStart : Prop :=
  ∀ s t : State, step s = .next t →
    t.exs = { instr := s.idex.instr, pc := s.idex.pc, valid := s.idex.valid }

/-- R72 and R82: Execute changes nothing if its latch is empty, else runs the one instruction the latch describes; and it
leaves the latch empty in every case. -/
def Obligations.ExecuteEmptiesItsLatch : Prop :=
  ∀ s t : State, executeStage s = .next t →
    (s.idex.valid = false → t = s) ∧
    (s.idex.valid = true → exec (Instr.ofFields s.idex.opcode s.idex.rs s.idex.rt s.idex.imm) s = .next t) ∧
    t.idex.valid = false

/-- R85: Decode, on the state Execute left. With IFID valid the latch takes the word, its index, the fields its opcode
selects and the two registers as they read now, and IFID is consumed; with IFID empty nothing changes. Derived: that opcodes 12 to 15
take the register path is the spec's decision D11 (R57; log entry 11). -/
def Obligations.DecodeFillsTheLatch : Prop :=
  ∀ s : State,
    (s.ifid.valid = false → s.decodeStage = s) ∧
    (s.ifid.valid = true →
      let w := s.ifid.instr
      let t := s.decodeStage
      t.idex.instr = w ∧ t.idex.pc = s.ifid.pc ∧ t.idex.opcode.code = w.toNat / 4096 ∧
      t.idex.rs.val = w.toNat / 64 % 64 ∧
      (if w.toNat / 4096 ∈ [3, 4, 5, 8, 9, 10, 11] then
        t.idex.rt = 0 ∧ t.idex.imm = if w.toNat % 64 < 32 then ((w.toNat % 64 : Nat) : Int) else (w.toNat % 64 : Nat) - 64
      else t.idex.rt.val = w.toNat % 64 ∧ t.idex.imm = 0) ∧
      t.idex.valRs = s.readReg t.idex.rs ∧ t.idex.valRt = s.readReg t.idex.rt ∧ t.idex.valid = true ∧
      t.ifid.valid = false ∧ SameRegisters s t ∧ SameMemory s t ∧ t.flags = s.flags ∧ t.pc = s.pc ∧ t.exs = s.exs)

/-- R87 in the whole cycle: Fetch uses the counter the cycle's transfer wrote, if it took one. A word other than the
sentinel is latched with its index and the counter moves past it; the sentinel clamps the counter and latches nothing; at
or beyond the bound the counter stays. Derived: the transfer's target rests on decisions D6 and D7 (log entries 7, 6). -/
def Obligations.FetchUsesTheRedirectedCounter : Prop :=
  ∀ s t : State, step s = .next t →
    if s.fetchPc.toNat < 1024 then
      if s.ifetch s.fetchPc.toNat = 0 then t.ifid.valid = false ∧ t.pc.toNat = 1024
      else t.ifid = { instr := s.ifetch s.fetchPc.toNat, pc := s.fetchPc, valid := true } ∧
        t.pc.toNat = s.fetchPc.toNat + 1
    else t.ifid.valid = false ∧ t.pc = s.fetchPc

/-- R22 and R88: no latch write overwrites an instruction in flight. Execute leaves IDEX empty for Decode, and Decode
leaves IFID empty for Fetch. -/
def Obligations.LatchesAreFreeWhenWritten : Prop :=
  ∀ s : State, ∃ u, executeStage s.snapshot = .next u ∧ u.idex.valid = false ∧ u.decodeStage.ifid.valid = false ∧
    step s = .next u.decodeStage.fetchStage

/-- R95 and R133: a taken transfer squashes the younger word, and the next cycle executes nothing (no register, flag or
memory change, shadow record invalid). Derived: R95 is the spec's inference. -/
def Obligations.TakenTransferCostsOneEmptyCycle : Prop :=
  ∀ (s t u : State) (target : Word), s.transferTarget = some target → step s = .next t → step t = .next u →
    t.exs.valid = true ∧ t.idex.valid = false ∧ (t.ifid.valid = true → t.ifid.pc = target) ∧
    u.exs.valid = false ∧ SameRegisters t u ∧ SameMemory t u ∧ u.flags = t.flags

/-- R134: a transfer to 1024 or beyond, or to the sentinel, is no fault: the machine is idle at the end of that cycle and
terminated after the next. Derived: R134 is the spec's inference; that the machine is idle and terminated with the
counter above 1024 is its decision D8 (log entry 8); a BEQZ below index 0 counts here with its target modulo 65536, its
decision D7 (log entry 6), and a BR with the target its snapshots give, its decision D6 (log entry 7). -/
def Obligations.TransferOutOfTheProgramEndsTheRun : Prop :=
  ∀ (s t u : State) (target : Word), s.transferTarget = some target →
    (1024 ≤ target.toNat ∨ s.ifetch target.toNat = 0) → step s = .next t → step t = .next u →
    t.idle = true ∧ u.terminated = true ∧
    t.pc = if 1024 ≤ target.toNat then target else 1024

/-- R89 to R91: from an idle state a step changes nothing but the shadow record and leaves the machine terminated, so
terminated stays true for ever. Derived: R91 is the spec's inference; the bound test is its decision D8 (log entry 8). -/
def Obligations.IdleIsAFixedPoint : Prop :=
  (∀ s : State, s.idle = true → ∃ t, step s = .next t ∧ t.terminated = true ∧ { t with exs := s.exs } = s) ∧
  ∀ s : State, s.terminated = true → s.idle = true ∧ s.exs.valid = false

/-! ### The whole machine -/

/-- R150, R164: every cycle, from every state and whatever the reset input, answers a next state. -/
def Obligations.StepAlwaysAnswers : Prop :=
  ∀ (s : State) (reset : Bool), ∃ t, clockEdge reset s = .next t ∧ (reset = false → step s = .next t)

/-- R11: register 0's cell is never mutated by a step, and register 0 reads 0 in every state; an instruction whose
destination is register 0 changes no register and leaves the flags it would leave with any other destination. -/
def Obligations.RegisterZeroIsNeverWritten : Prop :=
  (∀ s t : State, step s = .next t → t.regs[0] = s.regs[0] ∧ s.readReg 0 = 0 ∧ t.readReg 0 = 0) ∧
  ∀ (s : State) (op : Opcode) (r rt : RegIdx) (imm : Int),
    op ∈ [Opcode.add, .sub, .mul, .movi, .andi, .eor, .sal, .sar, .ldr] →
    ∃ t u, exec (Instr.ofFields op 0 rt imm) s = .next t ∧ exec (Instr.ofFields op r rt imm) s = .next u ∧
      t.regs = s.regs ∧ t.flags = u.flags

/-- R10, R26: a register changes only in a cycle that executes ADD, SUB, MUL, MOVI, ANDI, EOR, SAL, SAR or LDR, and then
only the source register. -/
def Obligations.OnlyTheSourceRegisterChanges : Prop :=
  ∀ (s t : State) (r : RegIdx), step s = .next t → t.readReg r ≠ s.readReg r →
    s.idex.valid = true ∧ r = s.idex.rs ∧ r ≠ 0 ∧
    s.idex.opcode ∈ [Opcode.add, .sub, .mul, .movi, .andi, .eor, .sal, .sar, .ldr]

/-- R13: the flags change only in a cycle that executes something other than STR, BR and a taken BEQZ. -/
def Obligations.FlagsChangeOnlyOnTheCommonPath : Prop :=
  ∀ s t : State, step s = .next t → t.flags ≠ s.flags →
    s.idex.valid = true ∧ s.idex.opcode ≠ .str ∧ s.transferTarget = none

/-- R13, R178: no instruction reads a flag. Two states that differ in their flags alone step to states that differ in
their flags alone. -/
def Obligations.FlagsNeverSteer : Prop :=
  ∀ (s t : State) (f : Flags), step s = .next t →
    ∃ u, step { s with flags := f } = .next u ∧ { u with flags := t.flags } = t

/-- R24, R44: no step changes the instruction store. -/
def Obligations.InstructionStoreIsConstant : Prop :=
  ∀ s t : State, step s = .next t → t.imem = s.imem ∧ ∀ a : Nat, t.ifetch a = s.ifetch a

/-- R17, R46: the data store changes in a cycle by the write the RAM port asks for and by nothing else, and the port
never asks for a read and a write at once. Derived: the port is the spec's decision D12 (log entry 18); its read enable
is the model's own signal (log entry 24). -/
def Obligations.DataStoreFollowsTheRamPort : Prop :=
  ∀ s t : State, step s = .next t →
    (∀ a : Int, t.memRead a =
      if s.ramPort.writeEnable = true ∧ a = s.ramPort.addr.toNat then s.ramPort.writeData else s.memRead a) ∧
    ¬(s.ramPort.readEnable = true ∧ s.ramPort.writeEnable = true)

/-- R46: the byte that a cycle's LDR loads is the read data of the RAM port, which are 0x00 for an immediate outside 0 to
2047; every other register keeps its value. Derived: the port is the spec's decision D12 (log entry 18), and a negative
address is out of range by its decision D3 (log entry 4). -/
def Obligations.LoadTakesTheRamPortData : Prop :=
  ∀ s t : State, s.idex.valid = true → s.idex.opcode = .ldr → step s = .next t →
    RegisterWritten s t s.idex.rs s.ramPort.readData ∧
    (¬(0 ≤ s.idex.imm ∧ s.idex.imm ≤ 2047) → s.ramPort.readData = 0)

/-- R46, R87: what a cycle's Fetch latches is the read data of the ROM port, driven on the state Decode left. With the
port not enabled Fetch changes nothing; with it enabled, the all-zero word ends sequential fetch and any other word is
latched. Derived: the port is the spec's decision D12 (log entry 18). -/
def Obligations.FetchTakesTheRomPortData : Prop :=
  ∀ s t : State, step s = .next t →
    ∃ u, executeStage s.snapshot = .next u ∧
      let d := u.decodeStage
      if d.romPort.enable = true then
        if d.romPort.readData = 0 then t.ifid.valid = false ∧ t.pc.toNat = 1024
        else t.ifid = { instr := d.romPort.readData, pc := d.pc, valid := true } ∧ t.pc.toNat = d.pc.toNat + 1
      else t = d

/-- R35: a program reaches data addresses 0 to 31 only; every other entry keeps its value. Derived: R35 is the spec's
inference, and a negative address stores nothing by decision D3 (log entry 4). -/
def Obligations.DataAboveThirtyOneIsOutOfReach : Prop :=
  ∀ s t : State, s.SnapshotCurrent → step s = .next t → ∀ a : Int, 32 ≤ a → t.memRead a = s.memRead a

/-- R14: the status register as a byte holds C, V, N, S, Z in bits 4 to 0 and 0 in bits 7 to 5. Derived: the positions
are the spec's decision D1, from general knowledge (log entry 3). -/
def Obligations.StatusByteLayout : Prop :=
  ∀ s : State, s.sregByte.toNat = 16 * s.flags.c.toNat + 8 * s.flags.v.toNat + 4 * s.flags.n.toNat +
    2 * s.flags.s.toNat + s.flags.z.toNat

/-- R93: after any cycle, from any state, a valid decode-execute latch holds the decoding of its word and its snapshots
equal the registers as they read now. Derived: R93 is the spec's inference. -/
def Obligations.SnapshotsAreCurrentAfterEveryStep : Prop :=
  ∀ s t : State, step s = .next t → t.SnapshotCurrent ∧
    (t.idex.valid = true → t.idex.valRs = t.readReg t.idex.rs ∧ t.idex.valRt = t.readReg t.idex.rt)

/-- The machine's invariant is kept by every step: register 0's cell is 0, both stores are canonical, a valid IDEX is the
decoding of its word with current snapshots, everything in flight is a word of the program, and what is in flight is
consecutive (R11, R22, R87, R88, R93, R94). -/
def Obligations.EveryStepKeepsTheInvariant : Prop := ∀ s t : State, s.Inv → step s = .next t → t.Inv

/-- R93 (c): seen by a program, the pipeline is the machine that executes one instruction at a time. A cycle that
executes is one step of that machine, and a cycle that does not changes nothing that a program can see. Derived: R93 is
the spec's inference; the sequential machine is the model's own (log entry 21). -/
def Obligations.PipelineRefinesSequentialMachine : Prop :=
  ∀ s t : State, s.Inv → step s = .next t →
    t.programView = if s.idex.valid then s.programView.sequentialStep.settled else s.programView

/-- A word placed for the next step is what that step runs: the shadow record names it after the step, or, for the
sentinel, the counter is clamped with nothing in flight. Derived: the placing is the model's own (log entry 16). -/
def Obligations.PlacedWordRunsNext : Prop :=
  ∀ (s t : State) (w : Nat), w < 65536 → step (s.withFetchWord 16 w) = .next t →
    if w = 0 then t.idle = true ∧ t.pc.toNat = 1024
    else t.exs.valid = true ∧ t.exs.instr = BitVec.ofNat 16 w ∧
      ∃ p : Word, (s.withFetchWord 16 w).idex = (s.withFetchWord 16 w).decodedLatch (BitVec.ofNat 16 w) p
end

