-- ==== Sys2Proof/Laws/Codec.lean ====
section
/-!
SUPPORT. The small laws of the codec's tables: codes and opcodes answer each other, and the immediate of a word is a
signed 6-bit value.
-/

namespace Sys2Proof

theorem Opcode.ofBits_code (op : Opcode) : Opcode.ofBits (BitVec.ofNat 4 op.code) = op := by cases op <;> rfl

theorem Opcode.code_ofBits (b : BitVec 4) : (Opcode.ofBits b).code = b.toNat := by revert b; decide

theorem Opcode.code_lt (op : Opcode) : op.code < 16 := by cases op <;> decide

theorem immInRange_iff (imm : Int) : immInRange imm = true ↔ -32 ≤ imm ∧ imm ≤ 31 := by simp [immInRange]

theorem immInRange_sext6 (v : BitVec 6) : immInRange (sext6 v) = true := by revert v; decide

theorem immInRange_immOf (w : Word) : immInRange (immOf w) = true := by
  unfold immOf
  split
  · exact immInRange_sext6 _
  · rfl

/-- The fields of an instruction word as numbers: `instr = opcode * 4096 + rs * 64 + low6` (R51). -/
theorem decodeFields_toNat (w : Word) :
    (decodeFields w).1.toNat = w.toNat / 4096 ∧ (decodeFields w).2.1.toNat = w.toNat / 64 % 64 ∧
      (decodeFields w).2.2.toNat = w.toNat % 64 := by
  have := w.isLt
  refine ⟨?_, ?_, ?_⟩ <;> simp [decodeFields, BitVec.extractLsb'_toNat, Nat.shiftRight_eq_div_pow]
  omega

/-- Packed fields as a number, each masked to its width (R51, R55). -/
theorem encodeFields_toNat (opcode rs : Nat) (v : Int) :
    (encodeFields opcode rs v).toNat = opcode % 16 * 4096 + rs % 64 * 64 + (v % 64).toNat := by
  have h1 : (BitVec.ofInt 6 v).toNat < 2 ^ 6 := (BitVec.ofInt 6 v).isLt
  have h2 : (BitVec.ofNat 6 rs).toNat < 2 ^ 6 := (BitVec.ofNat 6 rs).isLt
  simp only [encodeFields, BitVec.toNat_append]
  rw [← Nat.shiftLeft_add_eq_or_of_lt h2, ← Nat.shiftLeft_add_eq_or_of_lt h1, Nat.shiftLeft_eq, Nat.shiftLeft_eq,
    BitVec.toNat_ofNat, BitVec.toNat_ofNat, BitVec.toNat_ofInt]
  norm_num
  ring

end Sys2Proof
end

