-- ==== Sys2Proof/Laws/Memory.lean ====
section
/-!
SUPPORT. The laws of a store as a list: what a read gives after a write, that writing and loading keep the canonical
form, and what a loaded list reads as.
-/

namespace Sys2Proof.Machine

variable {w : Nat}

@[simp] theorem Memory.read_nil (a : Nat) : Memory.read ([] : List (Nat × BitVec w)) a = 0 := rfl

theorem Memory.read_cons (k : Nat) (v : BitVec w) (m : List (Nat × BitVec w)) (a : Nat) :
    Memory.read ((k, v) :: m) a = if k = a then v else Memory.read m a := rfl

theorem Memory.read_filter (m : List (Nat × BitVec w)) (a b : Nat) :
    Memory.read (m.filter (fun e => e.1 != a)) b = if b = a then 0 else Memory.read m b := by
  induction m with
  | nil => simp
  | cons e m ih =>
    obtain ⟨k, v⟩ := e
    by_cases hk : k = a <;> by_cases hb : k = b <;> simp_all [Memory.read_cons]

theorem Memory.read_insert (m : List (Nat × BitVec w)) (a b : Nat) (v : BitVec w)
    (hm : ∀ e ∈ m, e.1 ≠ a) : Memory.read (Memory.insert a v m) b = if b = a then v else Memory.read m b := by
  induction m with
  | nil => simp [Memory.insert, Memory.read_cons, eq_comm]
  | cons e m ih =>
    obtain ⟨k, u⟩ := e
    have hk : k ≠ a := hm (k, u) (by simp)
    have := ih (fun e he => hm e (by simp [he]))
    unfold Memory.insert
    split <;> simp only [Memory.read_cons, this] <;> grind

/-- The whole law of a write: the entry written takes the value, every other entry keeps its own. -/
theorem Memory.read_write (m : List (Nat × BitVec w)) (a b : Nat) (v : BitVec w) :
    Memory.read (Memory.write m a v) b = if b = a then v else Memory.read m b := by
  unfold Memory.write
  split
  · next hv => rw [Memory.read_filter, hv]; rfl
  · rw [Memory.read_insert _ _ _ _ (by simp), Memory.read_filter]
    split <;> simp_all

/-! ### The canonical form -/

theorem Memory.wfFrom_cons (size lo k : Nat) (v : BitVec w) (m : List (Nat × BitVec w)) :
    Memory.wfFrom size lo ((k, v) :: m) = true ↔ lo ≤ k ∧ k < size ∧ v ≠ 0 ∧ Memory.wfFrom size (k + 1) m = true := by
  simp [Memory.wfFrom, Memory.unlisted, and_assoc]

theorem Memory.wfFrom_mono {size lo lo' : Nat} {m : List (Nat × BitVec w)} (h : lo' ≤ lo)
    (hm : Memory.wfFrom size lo m = true) : Memory.wfFrom size lo' m = true := by
  cases m with
  | nil => rfl
  | cons e m =>
    obtain ⟨k, v⟩ := e
    rw [Memory.wfFrom_cons] at hm ⊢
    exact ⟨by omega, hm.2⟩

theorem Memory.wfFrom_filter {size lo : Nat} {m : List (Nat × BitVec w)} (p : Nat × BitVec w → Bool)
    (hm : Memory.wfFrom size lo m = true) : Memory.wfFrom size lo (m.filter p) = true := by
  induction m generalizing lo with
  | nil => rfl
  | cons e m ih =>
    obtain ⟨k, v⟩ := e
    rw [Memory.wfFrom_cons] at hm
    rw [List.filter_cons]
    split
    · rw [Memory.wfFrom_cons]
      exact ⟨hm.1, hm.2.1, hm.2.2.1, ih hm.2.2.2⟩
    · exact Memory.wfFrom_mono (by omega) (ih hm.2.2.2)

theorem Memory.wfFrom_insert {size lo a : Nat} {v : BitVec w} {m : List (Nat × BitVec w)} (ha : lo ≤ a) (hs : a < size)
    (hv : v ≠ 0) (hne : ∀ e ∈ m, e.1 ≠ a) (hm : Memory.wfFrom size lo m = true) :
    Memory.wfFrom size lo (Memory.insert a v m) = true := by
  induction m generalizing lo with
  | nil => exact (Memory.wfFrom_cons ..).2 ⟨ha, hs, hv, rfl⟩
  | cons e m ih =>
    obtain ⟨k, u⟩ := e
    have hk : k ≠ a := hne (k, u) (by simp)
    rw [Memory.wfFrom_cons] at hm
    unfold Memory.insert
    split
    · next h => exact (Memory.wfFrom_cons ..).2 ⟨ha, hs, hv, (Memory.wfFrom_cons ..).2 ⟨h, hm.2⟩⟩
    · next h =>
      exact (Memory.wfFrom_cons ..).2
        ⟨hm.1, hm.2.1, hm.2.2.1, ih (by omega) (fun e he => hne e (by simp [he])) hm.2.2.2⟩

/-- A write inside the store keeps the canonical form. -/
theorem Memory.wf_write {size a : Nat} {v : BitVec w} {m : List (Nat × BitVec w)} (ha : a < size)
    (hm : Memory.wf size m = true) : Memory.wf size (Memory.write m a v) = true := by
  unfold Memory.wf Memory.write at *
  split
  · exact Memory.wfFrom_filter _ hm
  · next hv => exact Memory.wfFrom_insert (Nat.zero_le _) ha hv (by simp) (Memory.wfFrom_filter _ hm)

theorem Memory.wf_nil (size : Nat) : Memory.wf size ([] : List (Nat × BitVec w)) = true := rfl

theorem Memory.wfFrom_ofList {size lo : Nat} (l : List (BitVec w)) (h : lo + l.length ≤ size) :
    Memory.wfFrom size lo (Memory.ofList lo l) = true := by
  induction l generalizing lo with
  | nil => rfl
  | cons v l ih =>
    simp only [List.length_cons] at h
    unfold Memory.ofList
    split
    · exact Memory.wfFrom_mono (by omega) (ih (lo := lo + 1) (by omega))
    · next hv => exact (Memory.wfFrom_cons ..).2 ⟨le_refl _, by omega, hv, ih (by omega)⟩

/-- What the loader places is in canonical form. -/
theorem Memory.wf_ofList {size : Nat} (l : List (BitVec w)) (h : l.length ≤ size) :
    Memory.wf size (Memory.ofList 0 l) = true :=
  Memory.wfFrom_ofList l (by omega)

end Sys2Proof.Machine
end

