-- ==== Sys2Proof/Laws/State.lean ====
section
/-!
SUPPORT. One lemma for each field of State under each one-field update of Machine/Ops.lean, all by rfl and all in the
simp set, so that no proof unfolds a record update.
-/

namespace Sys2Proof.Machine

section
variable (s : State) (x : Vector Byte 64)

@[simp] theorem State.withRegs_regs : (s.withRegs x).regs = x := rfl
@[simp] theorem State.withRegs_flags : (s.withRegs x).flags = s.flags := rfl
@[simp] theorem State.withRegs_pc : (s.withRegs x).pc = s.pc := rfl
@[simp] theorem State.withRegs_imem : (s.withRegs x).imem = s.imem := rfl
@[simp] theorem State.withRegs_dmem : (s.withRegs x).dmem = s.dmem := rfl
@[simp] theorem State.withRegs_ifid : (s.withRegs x).ifid = s.ifid := rfl
@[simp] theorem State.withRegs_idex : (s.withRegs x).idex = s.idex := rfl
@[simp] theorem State.withRegs_exs : (s.withRegs x).exs = s.exs := rfl

end

section
variable (s : State) (x : Flags)

@[simp] theorem State.withFlags_regs : (s.withFlags x).regs = s.regs := rfl
@[simp] theorem State.withFlags_flags : (s.withFlags x).flags = x := rfl
@[simp] theorem State.withFlags_pc : (s.withFlags x).pc = s.pc := rfl
@[simp] theorem State.withFlags_imem : (s.withFlags x).imem = s.imem := rfl
@[simp] theorem State.withFlags_dmem : (s.withFlags x).dmem = s.dmem := rfl
@[simp] theorem State.withFlags_ifid : (s.withFlags x).ifid = s.ifid := rfl
@[simp] theorem State.withFlags_idex : (s.withFlags x).idex = s.idex := rfl
@[simp] theorem State.withFlags_exs : (s.withFlags x).exs = s.exs := rfl

end

section
variable (s : State) (x : Word)

@[simp] theorem State.withPc_regs : (s.withPc x).regs = s.regs := rfl
@[simp] theorem State.withPc_flags : (s.withPc x).flags = s.flags := rfl
@[simp] theorem State.withPc_pc : (s.withPc x).pc = x := rfl
@[simp] theorem State.withPc_imem : (s.withPc x).imem = s.imem := rfl
@[simp] theorem State.withPc_dmem : (s.withPc x).dmem = s.dmem := rfl
@[simp] theorem State.withPc_ifid : (s.withPc x).ifid = s.ifid := rfl
@[simp] theorem State.withPc_idex : (s.withPc x).idex = s.idex := rfl
@[simp] theorem State.withPc_exs : (s.withPc x).exs = s.exs := rfl

end

section
variable (s : State) (x : List (Nat × Word))

@[simp] theorem State.withImem_regs : (s.withImem x).regs = s.regs := rfl
@[simp] theorem State.withImem_flags : (s.withImem x).flags = s.flags := rfl
@[simp] theorem State.withImem_pc : (s.withImem x).pc = s.pc := rfl
@[simp] theorem State.withImem_imem : (s.withImem x).imem = x := rfl
@[simp] theorem State.withImem_dmem : (s.withImem x).dmem = s.dmem := rfl
@[simp] theorem State.withImem_ifid : (s.withImem x).ifid = s.ifid := rfl
@[simp] theorem State.withImem_idex : (s.withImem x).idex = s.idex := rfl
@[simp] theorem State.withImem_exs : (s.withImem x).exs = s.exs := rfl

end

section
variable (s : State) (x : List Host.Cell)

@[simp] theorem State.withDmem_regs : (s.withDmem x).regs = s.regs := rfl
@[simp] theorem State.withDmem_flags : (s.withDmem x).flags = s.flags := rfl
@[simp] theorem State.withDmem_pc : (s.withDmem x).pc = s.pc := rfl
@[simp] theorem State.withDmem_imem : (s.withDmem x).imem = s.imem := rfl
@[simp] theorem State.withDmem_dmem : (s.withDmem x).dmem = x := rfl
@[simp] theorem State.withDmem_ifid : (s.withDmem x).ifid = s.ifid := rfl
@[simp] theorem State.withDmem_idex : (s.withDmem x).idex = s.idex := rfl
@[simp] theorem State.withDmem_exs : (s.withDmem x).exs = s.exs := rfl

end

section
variable (s : State) (x : FetchDecodeLatch)

@[simp] theorem State.withIfid_regs : (s.withIfid x).regs = s.regs := rfl
@[simp] theorem State.withIfid_flags : (s.withIfid x).flags = s.flags := rfl
@[simp] theorem State.withIfid_pc : (s.withIfid x).pc = s.pc := rfl
@[simp] theorem State.withIfid_imem : (s.withIfid x).imem = s.imem := rfl
@[simp] theorem State.withIfid_dmem : (s.withIfid x).dmem = s.dmem := rfl
@[simp] theorem State.withIfid_ifid : (s.withIfid x).ifid = x := rfl
@[simp] theorem State.withIfid_idex : (s.withIfid x).idex = s.idex := rfl
@[simp] theorem State.withIfid_exs : (s.withIfid x).exs = s.exs := rfl

end

section
variable (s : State) (x : DecodeExecuteLatch)

@[simp] theorem State.withIdex_regs : (s.withIdex x).regs = s.regs := rfl
@[simp] theorem State.withIdex_flags : (s.withIdex x).flags = s.flags := rfl
@[simp] theorem State.withIdex_pc : (s.withIdex x).pc = s.pc := rfl
@[simp] theorem State.withIdex_imem : (s.withIdex x).imem = s.imem := rfl
@[simp] theorem State.withIdex_dmem : (s.withIdex x).dmem = s.dmem := rfl
@[simp] theorem State.withIdex_ifid : (s.withIdex x).ifid = s.ifid := rfl
@[simp] theorem State.withIdex_idex : (s.withIdex x).idex = x := rfl
@[simp] theorem State.withIdex_exs : (s.withIdex x).exs = s.exs := rfl

end

section
variable (s : State) (x : ShadowRecord)

@[simp] theorem State.withExs_regs : (s.withExs x).regs = s.regs := rfl
@[simp] theorem State.withExs_flags : (s.withExs x).flags = s.flags := rfl
@[simp] theorem State.withExs_pc : (s.withExs x).pc = s.pc := rfl
@[simp] theorem State.withExs_imem : (s.withExs x).imem = s.imem := rfl
@[simp] theorem State.withExs_dmem : (s.withExs x).dmem = s.dmem := rfl
@[simp] theorem State.withExs_ifid : (s.withExs x).ifid = s.ifid := rfl
@[simp] theorem State.withExs_idex : (s.withExs x).idex = s.idex := rfl
@[simp] theorem State.withExs_exs : (s.withExs x).exs = x := rfl

end

end Sys2Proof.Machine
end

