-- ==== Sys2Proof/Laws/Ops.lean ====
section
/-!
SUPPORT. What each shared operation does, said once: the register file, the data store, the flush, the common path.
A later proof cites these and unfolds none of the operations.
-/

namespace Sys2Proof.Machine

/-! ### Reads under an update of another field -/

section
variable (s : State) (r : RegIdx) (a : Int) (n : Nat)

@[simp] theorem State.readReg_withFlags (x : Flags) : (s.withFlags x).readReg r = s.readReg r := rfl
@[simp] theorem State.readReg_withPc (x : Word) : (s.withPc x).readReg r = s.readReg r := rfl
@[simp] theorem State.readReg_withImem (x : List (Nat × Word)) : (s.withImem x).readReg r = s.readReg r := rfl
@[simp] theorem State.readReg_withDmem (x : List Host.Cell) : (s.withDmem x).readReg r = s.readReg r := rfl
@[simp] theorem State.readReg_withIfid (x : FetchDecodeLatch) : (s.withIfid x).readReg r = s.readReg r := rfl
@[simp] theorem State.readReg_withIdex (x : DecodeExecuteLatch) : (s.withIdex x).readReg r = s.readReg r := rfl
@[simp] theorem State.readReg_withExs (x : ShadowRecord) : (s.withExs x).readReg r = s.readReg r := rfl

@[simp] theorem State.memRead_withRegs (x : Vector Byte 64) : (s.withRegs x).memRead a = s.memRead a := rfl
@[simp] theorem State.memRead_withFlags (x : Flags) : (s.withFlags x).memRead a = s.memRead a := rfl
@[simp] theorem State.memRead_withPc (x : Word) : (s.withPc x).memRead a = s.memRead a := rfl
@[simp] theorem State.memRead_withImem (x : List (Nat × Word)) : (s.withImem x).memRead a = s.memRead a := rfl
@[simp] theorem State.memRead_withIfid (x : FetchDecodeLatch) : (s.withIfid x).memRead a = s.memRead a := rfl
@[simp] theorem State.memRead_withIdex (x : DecodeExecuteLatch) : (s.withIdex x).memRead a = s.memRead a := rfl
@[simp] theorem State.memRead_withExs (x : ShadowRecord) : (s.withExs x).memRead a = s.memRead a := rfl

@[simp] theorem State.ifetch_withRegs (x : Vector Byte 64) : (s.withRegs x).ifetch n = s.ifetch n := rfl
@[simp] theorem State.ifetch_withFlags (x : Flags) : (s.withFlags x).ifetch n = s.ifetch n := rfl
@[simp] theorem State.ifetch_withPc (x : Word) : (s.withPc x).ifetch n = s.ifetch n := rfl
@[simp] theorem State.ifetch_withDmem (x : List Host.Cell) : (s.withDmem x).ifetch n = s.ifetch n := rfl
@[simp] theorem State.ifetch_withIfid (x : FetchDecodeLatch) : (s.withIfid x).ifetch n = s.ifetch n := rfl
@[simp] theorem State.ifetch_withIdex (x : DecodeExecuteLatch) : (s.withIdex x).ifetch n = s.ifetch n := rfl
@[simp] theorem State.ifetch_withExs (x : ShadowRecord) : (s.withExs x).ifetch n = s.ifetch n := rfl

end

/-! ### The register file -/

section
variable (s : State) (r q : RegIdx) (v : Byte)

@[simp] theorem State.readReg_zero : s.readReg 0 = 0 := rfl

/-- The whole law of a register write (R10, R11). -/
theorem State.readReg_writeReg : (s.writeReg r v).readReg q = if q = r ∧ q ≠ 0 then v else s.readReg q := by
  unfold State.writeReg State.readReg
  by_cases hq : q = 0
  · simp [hq]
  · by_cases hr : r = 0
    · simp [hr, hq]
    · rw [if_neg hr, if_neg hq, if_neg hq, State.withRegs_regs, Fin.getElem_fin, Fin.getElem_fin, Vector.getElem_set]
      by_cases h : q = r
      · simp [h, hr]
      · have : (r : Nat) ≠ q := fun e => h (Fin.ext e.symm)
        simp [h, this]

/-- Register 0's cell is never written (R11). -/
@[simp] theorem State.writeReg_regs_zero : (s.writeReg r v).regs[0] = s.regs[0] := by
  unfold State.writeReg
  split
  · rfl
  · next h =>
    have : (r : Nat) ≠ 0 := fun e => h (Fin.ext e)
    simp [this]

@[simp] theorem State.writeReg_flags : (s.writeReg r v).flags = s.flags := by unfold State.writeReg; split <;> rfl
@[simp] theorem State.writeReg_pc : (s.writeReg r v).pc = s.pc := by unfold State.writeReg; split <;> rfl
@[simp] theorem State.writeReg_imem : (s.writeReg r v).imem = s.imem := by unfold State.writeReg; split <;> rfl
@[simp] theorem State.writeReg_dmem : (s.writeReg r v).dmem = s.dmem := by unfold State.writeReg; split <;> rfl
@[simp] theorem State.writeReg_ifid : (s.writeReg r v).ifid = s.ifid := by unfold State.writeReg; split <;> rfl
@[simp] theorem State.writeReg_idex : (s.writeReg r v).idex = s.idex := by unfold State.writeReg; split <;> rfl
@[simp] theorem State.writeReg_exs : (s.writeReg r v).exs = s.exs := by unfold State.writeReg; split <;> rfl
@[simp] theorem State.memRead_writeReg (a : Int) : (s.writeReg r v).memRead a = s.memRead a := by
  simp [State.memRead]
@[simp] theorem State.ifetch_writeReg (n : Nat) : (s.writeReg r v).ifetch n = s.ifetch n := by simp [State.ifetch]

end

/-! ### The data store -/

section
variable (s : State) (a b : Int) (v : Byte)

theorem dataAddrInRange_iff : dataAddrInRange a = true ↔ 0 ≤ a ∧ a < 2048 := by simp [dataAddrInRange]

/-- The whole law of a store (R32, R33). -/
theorem State.memRead_memWrite :
    (s.memWrite a v).memRead b = if b = a ∧ dataAddrInRange a = true then v else s.memRead b := by
  unfold State.memWrite
  by_cases ha : dataAddrInRange a = true
  · simp only [ha, if_true, and_true, State.memRead, State.withDmem_dmem, Memory.read_write]
    by_cases hb : b = a
    · simp [hb, ha]
    · by_cases hb' : dataAddrInRange b = true
      · simp only [dataAddrInRange, Bool.and_eq_true, decide_eq_true_eq] at ha hb'
        have : b.toNat ≠ a.toNat := by omega
        simp [hb, this]
      · simp [hb, hb']
  · simp [ha]

/-- Out of range nothing happens (R33). -/
theorem State.memWrite_outside (h : dataAddrInRange a = false) : s.memWrite a v = s := by simp [State.memWrite, h]

/-- A store keeps the canonical form of the data store. -/
theorem State.memWrite_wf (h : Memory.wf Config.dBound s.dmem = true) :
    Memory.wf Config.dBound (s.memWrite a v).dmem = true := by
  unfold State.memWrite
  split
  · next hr =>
    simp only [dataAddrInRange, Bool.and_eq_true, decide_eq_true_eq] at hr
    exact Memory.wf_write (by omega) h
  · exact h

@[simp] theorem State.memWrite_regs : (s.memWrite a v).regs = s.regs := by unfold State.memWrite; split <;> rfl
@[simp] theorem State.memWrite_flags : (s.memWrite a v).flags = s.flags := by unfold State.memWrite; split <;> rfl
@[simp] theorem State.memWrite_pc : (s.memWrite a v).pc = s.pc := by unfold State.memWrite; split <;> rfl
@[simp] theorem State.memWrite_imem : (s.memWrite a v).imem = s.imem := by unfold State.memWrite; split <;> rfl
@[simp] theorem State.memWrite_ifid : (s.memWrite a v).ifid = s.ifid := by unfold State.memWrite; split <;> rfl
@[simp] theorem State.memWrite_idex : (s.memWrite a v).idex = s.idex := by unfold State.memWrite; split <;> rfl
@[simp] theorem State.memWrite_exs : (s.memWrite a v).exs = s.exs := by unfold State.memWrite; split <;> rfl
@[simp] theorem State.readReg_memWrite (r : RegIdx) : (s.memWrite a v).readReg r = s.readReg r := by
  simp [State.readReg]
@[simp] theorem State.ifetch_memWrite (n : Nat) : (s.memWrite a v).ifetch n = s.ifetch n := by simp [State.ifetch]

end

/-! ### Latches, transfers, and the common path -/

section
variable (s : State) (rs r : RegIdx) (v : Byte) (f : Flags) (target : Word) (a : Int) (n : Nat)

@[simp] theorem State.invalidateIfid_regs : (s.invalidateIfid).regs = s.regs := rfl
@[simp] theorem State.invalidateIfid_flags : (s.invalidateIfid).flags = s.flags := rfl
@[simp] theorem State.invalidateIfid_pc : (s.invalidateIfid).pc = s.pc := rfl
@[simp] theorem State.invalidateIfid_imem : (s.invalidateIfid).imem = s.imem := rfl
@[simp] theorem State.invalidateIfid_dmem : (s.invalidateIfid).dmem = s.dmem := rfl
@[simp] theorem State.invalidateIfid_ifid : (s.invalidateIfid).ifid = { s.ifid with valid := false } := rfl
@[simp] theorem State.invalidateIfid_idex : (s.invalidateIfid).idex = s.idex := rfl
@[simp] theorem State.invalidateIfid_exs : (s.invalidateIfid).exs = s.exs := rfl

@[simp] theorem State.invalidateIdex_regs : (s.invalidateIdex).regs = s.regs := rfl
@[simp] theorem State.invalidateIdex_flags : (s.invalidateIdex).flags = s.flags := rfl
@[simp] theorem State.invalidateIdex_pc : (s.invalidateIdex).pc = s.pc := rfl
@[simp] theorem State.invalidateIdex_imem : (s.invalidateIdex).imem = s.imem := rfl
@[simp] theorem State.invalidateIdex_dmem : (s.invalidateIdex).dmem = s.dmem := rfl
@[simp] theorem State.invalidateIdex_ifid : (s.invalidateIdex).ifid = s.ifid := rfl
@[simp] theorem State.invalidateIdex_idex : (s.invalidateIdex).idex = { s.idex with valid := false } := rfl
@[simp] theorem State.invalidateIdex_exs : (s.invalidateIdex).exs = s.exs := rfl

@[simp] theorem State.flush_regs : (s.flush).regs = s.regs := rfl
@[simp] theorem State.flush_flags : (s.flush).flags = s.flags := rfl
@[simp] theorem State.flush_pc : (s.flush).pc = s.pc := rfl
@[simp] theorem State.flush_imem : (s.flush).imem = s.imem := rfl
@[simp] theorem State.flush_dmem : (s.flush).dmem = s.dmem := rfl
@[simp] theorem State.flush_ifid : (s.flush).ifid = { s.ifid with valid := false } := rfl
@[simp] theorem State.flush_idex : (s.flush).idex = { s.idex with valid := false } := rfl
@[simp] theorem State.flush_exs : (s.flush).exs = s.exs := rfl

@[simp] theorem State.redirect_regs : (s.redirect target).regs = s.regs := rfl
@[simp] theorem State.redirect_flags : (s.redirect target).flags = s.flags := rfl
@[simp] theorem State.redirect_pc : (s.redirect target).pc = target := rfl
@[simp] theorem State.redirect_imem : (s.redirect target).imem = s.imem := rfl
@[simp] theorem State.redirect_dmem : (s.redirect target).dmem = s.dmem := rfl
@[simp] theorem State.redirect_ifid : (s.redirect target).ifid = { s.ifid with valid := false } := rfl
@[simp] theorem State.redirect_idex : (s.redirect target).idex = { s.idex with valid := false } := rfl
@[simp] theorem State.redirect_exs : (s.redirect target).exs = s.exs := rfl

@[simp] theorem State.endOfProgram_regs : (s.endOfProgram).regs = s.regs := rfl
@[simp] theorem State.endOfProgram_flags : (s.endOfProgram).flags = s.flags := rfl
@[simp] theorem State.endOfProgram_pc : (s.endOfProgram).pc = 1024 := rfl
@[simp] theorem State.endOfProgram_imem : (s.endOfProgram).imem = s.imem := rfl
@[simp] theorem State.endOfProgram_dmem : (s.endOfProgram).dmem = s.dmem := rfl
@[simp] theorem State.endOfProgram_ifid : (s.endOfProgram).ifid = s.ifid := rfl
@[simp] theorem State.endOfProgram_idex : (s.endOfProgram).idex = s.idex := rfl
@[simp] theorem State.endOfProgram_exs : (s.endOfProgram).exs = s.exs := rfl

@[simp] theorem State.finishWrite_regs : (s.finishWrite rs v f).regs = (s.writeReg rs v).regs := rfl
@[simp] theorem State.finishWrite_flags : (s.finishWrite rs v f).flags = f := rfl
@[simp] theorem State.finishWrite_pc : (s.finishWrite rs v f).pc = s.pc := by simp [State.finishWrite]
@[simp] theorem State.finishWrite_imem : (s.finishWrite rs v f).imem = s.imem := by simp [State.finishWrite]
@[simp] theorem State.finishWrite_dmem : (s.finishWrite rs v f).dmem = s.dmem := by simp [State.finishWrite]
@[simp] theorem State.finishWrite_ifid : (s.finishWrite rs v f).ifid = s.ifid := by simp [State.finishWrite]
@[simp] theorem State.finishWrite_idex : (s.finishWrite rs v f).idex = { s.idex with valid := false } := by simp [State.finishWrite]
@[simp] theorem State.finishWrite_exs : (s.finishWrite rs v f).exs = s.exs := by simp [State.finishWrite]

@[simp] theorem State.finishNoWrite_regs : (s.finishNoWrite f).regs = s.regs := rfl
@[simp] theorem State.finishNoWrite_flags : (s.finishNoWrite f).flags = f := rfl
@[simp] theorem State.finishNoWrite_pc : (s.finishNoWrite f).pc = s.pc := rfl
@[simp] theorem State.finishNoWrite_imem : (s.finishNoWrite f).imem = s.imem := rfl
@[simp] theorem State.finishNoWrite_dmem : (s.finishNoWrite f).dmem = s.dmem := rfl
@[simp] theorem State.finishNoWrite_ifid : (s.finishNoWrite f).ifid = s.ifid := rfl
@[simp] theorem State.finishNoWrite_idex : (s.finishNoWrite f).idex = { s.idex with valid := false } := rfl
@[simp] theorem State.finishNoWrite_exs : (s.finishNoWrite f).exs = s.exs := rfl

@[simp] theorem State.readReg_invalidateIfid : (s.invalidateIfid).readReg r = s.readReg r := rfl
@[simp] theorem State.memRead_invalidateIfid : (s.invalidateIfid).memRead a = s.memRead a := rfl
@[simp] theorem State.ifetch_invalidateIfid : (s.invalidateIfid).ifetch n = s.ifetch n := rfl
@[simp] theorem State.readReg_invalidateIdex : (s.invalidateIdex).readReg r = s.readReg r := rfl
@[simp] theorem State.memRead_invalidateIdex : (s.invalidateIdex).memRead a = s.memRead a := rfl
@[simp] theorem State.ifetch_invalidateIdex : (s.invalidateIdex).ifetch n = s.ifetch n := rfl
@[simp] theorem State.readReg_flush : (s.flush).readReg r = s.readReg r := rfl
@[simp] theorem State.memRead_flush : (s.flush).memRead a = s.memRead a := rfl
@[simp] theorem State.ifetch_flush : (s.flush).ifetch n = s.ifetch n := rfl
@[simp] theorem State.readReg_redirect : (s.redirect target).readReg r = s.readReg r := rfl
@[simp] theorem State.memRead_redirect : (s.redirect target).memRead a = s.memRead a := rfl
@[simp] theorem State.ifetch_redirect : (s.redirect target).ifetch n = s.ifetch n := rfl
@[simp] theorem State.readReg_endOfProgram : (s.endOfProgram).readReg r = s.readReg r := rfl
@[simp] theorem State.memRead_endOfProgram : (s.endOfProgram).memRead a = s.memRead a := rfl
@[simp] theorem State.ifetch_endOfProgram : (s.endOfProgram).ifetch n = s.ifetch n := rfl
@[simp] theorem State.readReg_finishNoWrite : (s.finishNoWrite f).readReg r = s.readReg r := rfl
@[simp] theorem State.memRead_finishNoWrite : (s.finishNoWrite f).memRead a = s.memRead a := rfl
@[simp] theorem State.ifetch_finishNoWrite : (s.finishNoWrite f).ifetch n = s.ifetch n := rfl

/-- The write-back of the common path: the source register alone, and register 0 never (R75). -/
theorem State.readReg_finishWrite :
    (s.finishWrite rs v f).readReg r = if r = rs ∧ r ≠ 0 then v else s.readReg r := by
  simp [State.finishWrite, State.readReg_writeReg]
@[simp] theorem State.memRead_finishWrite : (s.finishWrite rs v f).memRead a = s.memRead a := by
  simp [State.finishWrite]
@[simp] theorem State.ifetch_finishWrite : (s.finishWrite rs v f).ifetch n = s.ifetch n := by
  simp [State.finishWrite]

/-- The loader leaves the instruction store in canonical form. -/
theorem State.loadProgram_wf (program : List Word) :
    Memory.wf Config.iBound (s.loadProgram program).imem = true :=
  Memory.wf_ofList _ (by simp)

end

end Sys2Proof.Machine
end

