-- ==== Sys2Proof/Laws/PerInstr.lean ====
section
/-!
SUPPORT. Facts about instructions as syntax, one lemma for each constructor. Family `EncodedOpcode`: the opcode field of
an instruction's word is its row's code in the table of 30_encoding.md R56.
-/

namespace Sys2Proof.Laws

/-- Bits [15:12] of packed fields are the opcode masked to 4 bits (R55). -/
theorem opcode_encodeFields (opcode rs : Nat) (v : Int) :
    (decodeFields (encodeFields opcode rs v)).1 = BitVec.ofNat 4 opcode := by
  apply BitVec.eq_of_toNat_eq
  rw [(decodeFields_toNat _).1, encodeFields_toNat, BitVec.toNat_ofNat]
  omega

/-- The opcode field of the word of `i` is the code of its row. -/
def EncodedOpcode.Statement (i : Instr) : Prop := (decodeFields (encode i)).1.toNat = i.opcode.code

variable (rs rt : RegIdx) (imm : Int)

theorem EncodedOpcode.add : EncodedOpcode.Statement (.add rs rt) := congrArg BitVec.toNat (opcode_encodeFields ..)
theorem EncodedOpcode.sub : EncodedOpcode.Statement (.sub rs rt) := congrArg BitVec.toNat (opcode_encodeFields ..)
theorem EncodedOpcode.mul : EncodedOpcode.Statement (.mul rs rt) := congrArg BitVec.toNat (opcode_encodeFields ..)
theorem EncodedOpcode.movi : EncodedOpcode.Statement (.movi rs imm) := congrArg BitVec.toNat (opcode_encodeFields ..)
theorem EncodedOpcode.beqz : EncodedOpcode.Statement (.beqz rs imm) := congrArg BitVec.toNat (opcode_encodeFields ..)
theorem EncodedOpcode.andi : EncodedOpcode.Statement (.andi rs imm) := congrArg BitVec.toNat (opcode_encodeFields ..)
theorem EncodedOpcode.eor : EncodedOpcode.Statement (.eor rs rt) := congrArg BitVec.toNat (opcode_encodeFields ..)
theorem EncodedOpcode.br : EncodedOpcode.Statement (.br rs rt) := congrArg BitVec.toNat (opcode_encodeFields ..)
theorem EncodedOpcode.sal : EncodedOpcode.Statement (.sal rs imm) := congrArg BitVec.toNat (opcode_encodeFields ..)
theorem EncodedOpcode.sar : EncodedOpcode.Statement (.sar rs imm) := congrArg BitVec.toNat (opcode_encodeFields ..)
theorem EncodedOpcode.ldr : EncodedOpcode.Statement (.ldr rs imm) := congrArg BitVec.toNat (opcode_encodeFields ..)
theorem EncodedOpcode.str : EncodedOpcode.Statement (.str rs imm) := congrArg BitVec.toNat (opcode_encodeFields ..)
theorem EncodedOpcode.reserved12 : EncodedOpcode.Statement (.reserved12 rs rt) :=
  congrArg BitVec.toNat (opcode_encodeFields ..)
theorem EncodedOpcode.reserved13 : EncodedOpcode.Statement (.reserved13 rs rt) :=
  congrArg BitVec.toNat (opcode_encodeFields ..)
theorem EncodedOpcode.reserved14 : EncodedOpcode.Statement (.reserved14 rs rt) :=
  congrArg BitVec.toNat (opcode_encodeFields ..)
theorem EncodedOpcode.reserved15 : EncodedOpcode.Statement (.reserved15 rs rt) :=
  congrArg BitVec.toNat (opcode_encodeFields ..)
theorem EncodedOpcode.sentinel : EncodedOpcode.Statement .sentinel := rfl

end Sys2Proof.Laws
end

