-- ==== Sys2Proof/Laws/Pipeline.lean ====
section
/-!
SUPPORT. What each sub-step of a cycle can do, said once (40_pipeline.md R70 to R72, R85, R87), and the cycle as their
composition. Every instruction answers a next state, so a proof about a cycle starts from `step_eq`.
-/

namespace Sys2Proof.Machine

section
variable (s : State) (r : RegIdx) (a : Int) (n : Nat)

/-! ### The snapshot -/

@[simp] theorem State.snapshot_exs :
    s.snapshot.exs = { instr := s.idex.instr, pc := s.idex.pc, valid := s.idex.valid } := rfl
@[simp] theorem State.snapshot_regs : s.snapshot.regs = s.regs := rfl
@[simp] theorem State.snapshot_flags : s.snapshot.flags = s.flags := rfl
@[simp] theorem State.snapshot_pc : s.snapshot.pc = s.pc := rfl
@[simp] theorem State.snapshot_imem : s.snapshot.imem = s.imem := rfl
@[simp] theorem State.snapshot_dmem : s.snapshot.dmem = s.dmem := rfl
@[simp] theorem State.snapshot_ifid : s.snapshot.ifid = s.ifid := rfl
@[simp] theorem State.snapshot_idex : s.snapshot.idex = s.idex := rfl
@[simp] theorem State.readReg_snapshot : s.snapshot.readReg r = s.readReg r := rfl
@[simp] theorem State.memRead_snapshot : s.snapshot.memRead a = s.memRead a := rfl
@[simp] theorem State.ifetch_snapshot : s.snapshot.ifetch n = s.ifetch n := rfl

/-! ### Decode -/

theorem State.decodeStage_empty (h : s.ifid.valid = false) : s.decodeStage = s := by simp [State.decodeStage, h]

theorem State.decodeStage_valid (h : s.ifid.valid = true) :
    s.decodeStage = (s.withIdex (s.decodedLatch s.ifid.instr s.ifid.pc)).invalidateIfid := by
  simp [State.decodeStage, h]

@[simp] theorem State.decodeStage_regs : s.decodeStage.regs = s.regs := by unfold State.decodeStage; split <;> rfl
@[simp] theorem State.decodeStage_flags : s.decodeStage.flags = s.flags := by unfold State.decodeStage; split <;> rfl
@[simp] theorem State.decodeStage_pc : s.decodeStage.pc = s.pc := by unfold State.decodeStage; split <;> rfl
@[simp] theorem State.decodeStage_imem : s.decodeStage.imem = s.imem := by unfold State.decodeStage; split <;> rfl
@[simp] theorem State.decodeStage_dmem : s.decodeStage.dmem = s.dmem := by unfold State.decodeStage; split <;> rfl
@[simp] theorem State.decodeStage_exs : s.decodeStage.exs = s.exs := by unfold State.decodeStage; split <;> rfl

/-! ### Fetch -/

theorem State.fetchEnabled_iff : s.fetchEnabled = true ↔ s.pc.toNat < 1024 := by simp [State.fetchEnabled]

/-- At or beyond the bound Fetch does nothing (R87). -/
theorem State.fetchStage_off (h : s.fetchEnabled = false) : s.fetchStage = s := by simp [State.fetchStage, h]

/-- On the sentinel Fetch ends sequential fetch (R87). -/
theorem State.fetchStage_sentinel (h : s.fetchEnabled = true) (hw : s.ifetch s.pc.toNat = 0) :
    s.fetchStage = s.endOfProgram := by rw [State.fetchStage, if_pos h, if_pos hw]

/-- On any other word Fetch fills its latch and moves on (R87). -/
theorem State.fetchStage_word (h : s.fetchEnabled = true) (hw : s.ifetch s.pc.toNat ≠ 0) :
    s.fetchStage = (s.withIfid { instr := s.ifetch s.pc.toNat, pc := s.pc, valid := true }).withPc (s.pc + 1) := by
  rw [State.fetchStage, if_pos h, if_neg hw]

@[simp] theorem State.fetchStage_regs : s.fetchStage.regs = s.regs := by
  unfold State.fetchStage; split <;> (try split) <;> rfl
@[simp] theorem State.fetchStage_flags : s.fetchStage.flags = s.flags := by
  unfold State.fetchStage; split <;> (try split) <;> rfl
@[simp] theorem State.fetchStage_imem : s.fetchStage.imem = s.imem := by
  unfold State.fetchStage; split <;> (try split) <;> rfl
@[simp] theorem State.fetchStage_dmem : s.fetchStage.dmem = s.dmem := by
  unfold State.fetchStage; split <;> (try split) <;> rfl
@[simp] theorem State.fetchStage_idex : s.fetchStage.idex = s.idex := by
  unfold State.fetchStage; split <;> (try split) <;> rfl
@[simp] theorem State.fetchStage_exs : s.fetchStage.exs = s.exs := by
  unfold State.fetchStage; split <;> (try split) <;> rfl

/-! ### Both together -/

@[simp] theorem State.frontEnd_regs : s.frontEnd.regs = s.regs := by simp [State.frontEnd]
@[simp] theorem State.frontEnd_flags : s.frontEnd.flags = s.flags := by simp [State.frontEnd]
@[simp] theorem State.frontEnd_imem : s.frontEnd.imem = s.imem := by simp [State.frontEnd]
@[simp] theorem State.frontEnd_dmem : s.frontEnd.dmem = s.dmem := by simp [State.frontEnd]
@[simp] theorem State.frontEnd_exs : s.frontEnd.exs = s.exs := by simp [State.frontEnd]
@[simp] theorem State.readReg_frontEnd : s.frontEnd.readReg r = s.readReg r := by simp [State.readReg]
@[simp] theorem State.memRead_frontEnd : s.frontEnd.memRead a = s.memRead a := by simp [State.memRead]
@[simp] theorem State.ifetch_frontEnd : s.frontEnd.ifetch n = s.ifetch n := by simp [State.ifetch]

end

/-! ### Execute and the cycle -/

/-- Every instruction answers a next state: there is no fault and no refusal in the core (R150, R164). -/
theorem exec_next (i : Instr) (s : State) : ∃ t, exec i s = .next t := by
  cases i
  case beqz rs imm => exact ⟨_, (apply_ite Host.Outcome.next ..).symm⟩
  all_goals exact ⟨_, rfl⟩

theorem executeStage_empty {s : State} (h : s.idex.valid = false) : executeStage s = .next s := by
  simp [executeStage, h]

theorem executeStage_valid {s : State} (h : s.idex.valid = true) : executeStage s = exec s.idex.instruction s := by
  simp [executeStage, h]

theorem executeStage_next (s : State) : ∃ t, executeStage s = .next t := by
  unfold executeStage
  split
  · exact exec_next _ _
  · exact ⟨s, rfl⟩

/-- A cycle is Execute on the snapshot, then Decode and Fetch (R70). -/
theorem step_eq {s t : State} : step s = .next t ↔ ∃ u, executeStage s.snapshot = .next u ∧ t = u.frontEnd := by
  obtain ⟨u, hu⟩ := executeStage_next s.snapshot
  simp [step, hu, eq_comm]

end Sys2Proof.Machine
end

