-- ==== Sys2Proof/Laws/Ports.lean ====
section
/-!
SUPPORT. What the two memory ports carry (20_memory.md R46): an address in range survives the port's width, so the
data are those of `IFetch` and `MemRead`.
-/

namespace Sys2Proof.Machine

section
variable (s : State)

@[simp] theorem State.romPort_enable : s.romPort.enable = s.fetchEnabled := rfl
@[simp] theorem State.romPort_addr : s.romPort.addr = s.pc.extractLsb' 0 10 := rfl
@[simp] theorem State.ramPort_addr : s.ramPort.addr = BitVec.ofInt 11 s.idex.imm := rfl
@[simp] theorem State.ramPort_writeData : s.ramPort.writeData = s.readReg s.idex.rs := rfl

/-- Ten address lines lose nothing of a counter below the bound. -/
theorem State.romPort_addr_toNat (h : s.fetchEnabled = true) : s.romPort.addr.toNat = s.pc.toNat := by
  rw [State.fetchEnabled_iff] at h
  rw [State.romPort_addr, BitVec.extractLsb'_toNat]
  exact Nat.mod_eq_of_lt h

/-- While it is enabled, the instruction-ROM port gives the word that Fetch reads (R31). -/
theorem State.romPort_readData (h : s.fetchEnabled = true) : s.romPort.readData = s.ifetch s.pc.toNat := by
  rw [← s.romPort_addr_toNat h]
  exact if_pos h

/-- Eleven address lines lose nothing of an immediate in range. -/
theorem State.ramPort_addr_toNat (h : dataAddrInRange s.idex.imm = true) :
    s.ramPort.addr.toNat = s.idex.imm.toNat := by
  rw [dataAddrInRange_iff] at h
  rw [State.ramPort_addr, BitVec.toNat_ofInt]
  omega

/-- The data-RAM port gives the byte of `MemRead` at the immediate, 0x00 out of range (R32). -/
theorem State.ramPort_readData : s.ramPort.readData = s.memRead s.idex.imm := by
  by_cases h : dataAddrInRange s.idex.imm = true
  · rw [State.memRead, if_pos h, ← s.ramPort_addr_toNat h]
    exact if_pos h
  · rw [State.memRead, if_neg h]
    exact if_neg h

end

end Sys2Proof.Machine
end

