-- ==== Sys2Proof/Tests/Slice0.lean ====
section
/-!
SUPPORT. Small tests: the checks of WellFormed, words of every family decoded, single instructions at the values of
95_test_vectors.md, and a witness for the hypotheses and the boundary of each clause of the statements.
-/

namespace Sys2Proof.Tests

open Sys2Proof Sys2Proof.Machine

/-! ### WellFormed refuses -/

theorem test_wf_add_zero : ¬WellFormed (.add 0 0) ∧ WellFormed (.add 0 5) ∧ WellFormed (.add 5 0) := by decide
theorem test_wf_movi : ¬WellFormed (.movi 1 32) ∧ ¬WellFormed (.movi 1 (-33)) ∧ WellFormed (.movi 1 31) := by decide
theorem test_wf_beqz : ¬WellFormed (.beqz 1 32) ∧ ¬WellFormed (.beqz 1 (-33)) ∧ WellFormed (.beqz 1 (-32)) := by decide
theorem test_wf_andi : ¬WellFormed (.andi 1 32) ∧ ¬WellFormed (.andi 1 (-33)) := by decide
theorem test_wf_shift : ¬WellFormed (.sal 1 40) ∧ ¬WellFormed (.sal 1 (-33)) ∧ ¬WellFormed (.sar 1 32) ∧ ¬WellFormed (.sar 1 (-40)) := by decide
theorem test_wf_memory : ¬WellFormed (.ldr 1 32) ∧ ¬WellFormed (.ldr 1 (-33)) ∧ ¬WellFormed (.str 1 2048) ∧ ¬WellFormed (.str 1 (-33)) := by decide

/-! ### Decoding: words written out from 30_encoding.md R51 and R56 (opcode, rs, low six bits) -/

theorem test_decode_add : decode 0b0000_000001_000010 = .add 1 2 := by decide
theorem test_decode_sub : decode 0b0001_000010_000001 = .sub 2 1 := by decide
theorem test_decode_mul : decode 0b0010_111111_100000 = .mul 63 32 := by decide
theorem test_decode_movi : decode 0b0011_111111_011111 = .movi 63 31 := by decide
theorem test_decode_beqz : decode 0b0100_000000_111100 = .beqz 0 (-4) := by decide
theorem test_decode_andi : decode 0b0101_000001_110000 = .andi 1 (-16) := by decide
theorem test_decode_eor : decode 0b0110_000011_000001 = .eor 3 1 := by decide
theorem test_decode_br : decode 0b0111_000001_000010 = .br 1 2 := by decide
theorem test_decode_sal : decode 0b1000_000011_000010 = .sal 3 2 := by decide
theorem test_decode_sar : decode 0b1001_111111_100000 = .sar 63 (-32) := by decide
theorem test_decode_ldr : decode 0b1010_000010_001010 = .ldr 2 10 := by decide
theorem test_decode_str : decode 0b1011_000001_001010 = .str 1 10 := by decide
theorem test_decode_reserved : decode 0b1100_000001_000001 = .reserved12 1 1 ∧ decode 0b1101_000001_000001 = .reserved13 1 1 ∧
    decode 0b1110_000001_000001 = .reserved14 1 1 ∧ decode 0b1111_111111_111111 = .reserved15 63 63 := by decide
theorem test_decode_sentinel : decode 0 = .sentinel ∧ decode 0b0000_000000_000101 = .add 0 5 := by decide
/-- `encode` of the immediate 40 decodes as -24 (R55). -/
theorem test_encode_wraps : decode (encodeFields 3 1 40) = .movi 1 (-24) := by decide
theorem test_decodeTableWord : decodeTableWord 16 0x9FE0 = some (.sar 63 (-32)) ∧ decodeTableWord 24 0x9FE0 = none := by decide

/-! ### One instruction at a time (95_test_vectors.md section 3) -/

/-- `x[1] = a`, `x[2] = b`, the word `w` of index `p` just decoded, a younger word in IFID, `pc` two beyond `p`. -/
def ready (w p : Word) (a b : Byte) : State :=
  let s := ((State.reset.writeReg 1 a).writeReg 2 b).withPc (p + 2)
  (s.withIdex (s.decodedLatch w p)).withIfid { instr := 0x3045, pc := p + 1, valid := true }

/-- What Execute leaves of the latched instruction, seen through `f`. -/
def after {α : Type} (s : State) (f : State → α) : Option α :=
  match executeStage s with
  | .next t => some (f t)
  | .fault _ => none
  | .refused _ => none

theorem test_add_carry : after (ready 0x0042 9 0xC8 0x64) (fun t => (t.readReg 1, t.sregByte)) = some (0x2C, 0x10) := by decide
theorem test_add_all_but_n : after (ready 0x0042 9 0x80 0x80) (fun t => (t.readReg 1, t.sregByte)) = some (0x00, 0x1B) := by decide
theorem test_sub_source : after (ready 0x1042 9 0x03 0x05) (fun t => (t.readReg 1, t.sregByte)) = some (0xFE, 0x1C) := by decide
theorem test_sub_not_a_borrow : after (ready 0x1042 9 0x80 0x01) (fun t => (t.readReg 1, t.sregByte)) = some (0x7F, 0x10) := by decide
theorem test_mul_sign : after (ready 0x2042 9 0x80 0x01) (fun t => (t.readReg 1, t.sregByte)) = some (0x80, 0x06) := by decide
theorem test_mul_low_byte : after (ready 0x2042 9 0x10 0x10) (fun t => (t.readReg 1, t.sregByte)) = some (0x00, 0x01) := by decide
theorem test_movi : after (ready 0x3060 9 0x77 0) (fun t => (t.readReg 1, t.sregByte)) = some (0xE0, 0x06) := by decide
theorem test_movi_zero_register : after (ready 0x3000 9 0 0) (fun t => (t.readReg 0, t.regs[0], t.sregByte)) = some (0, 0, 0x01) := by decide
theorem test_andi : after (ready 0x5070 9 0xAB 0) (fun t => (t.readReg 1, t.sregByte)) = some (0xA0, 0x06) := by decide
theorem test_andi_clears : after (ready 0x504F 9 0xF0 0) (fun t => (t.readReg 1, t.sregByte)) = some (0x00, 0x01) := by decide
theorem test_eor : after (ready 0x6042 9 0x0F 0xFF) (fun t => (t.readReg 1, t.readReg 2, t.sregByte)) = some (0xF0, 0xFF, 0x06) := by decide
theorem test_sal : after (ready 0x8041 9 0x81 0) (fun t => (t.readReg 1, t.sregByte)) = some (0x02, 0x00) := by decide
/-- A negative amount writes the free value, whatever it is, and the flags are those of that value. -/
theorem test_sal_negative : after (ready 0x807F 9 0x81 0) (fun t => (t.readReg 1, t.flags)) =
    some (Config.shiftNeg .sal 0x81 (-1), flagsLogic (Config.shiftNeg .sal 0x81 (-1))) := rfl
theorem test_sar : after (ready 0x9041 9 0x80 0) (fun t => (t.readReg 1, t.sregByte)) = some (0xC0, 0x06) := by decide
theorem test_sar_negative : after (ready 0x9060 9 0x80 0) (fun t => t.readReg 1) = some (Config.shiftNeg .sar 0x80 (-32)) := rfl
theorem test_ldr : after ((ready 0xA05F 9 0x09 0).memWrite 31 0xBE) (fun t => (t.readReg 1, t.sregByte)) = some (0xBE, 0x06) := by decide
theorem test_ldr_negative : after ((ready 0xA07F 9 0x09 0).memWrite 31 0xBE) (fun t => (t.readReg 1, t.sregByte)) = some (0x00, 0x01) := by decide
theorem test_str : after (ready 0xB04A 9 0xC3 0) (fun t => (t.dmem, t.readReg 1, t.sregByte)) = some ([(10, 0xC3)], 0xC3, 0) := by decide
theorem test_str_negative : after (ready 0xB07F 9 0xC3 0) (fun t => (t.dmem, t.pc, t.idex.valid)) = some ([], 11, false) := by decide
theorem test_beqz_taken : after (ready 0x407E 100 0 0) (fun t => (t.pc, t.ifid.valid, t.idex.valid)) = some (99, false, false) := by decide
theorem test_beqz_untaken : after (ready 0x407E 100 1 0) (fun t => (t.pc, t.ifid.valid, t.idex.valid, t.flags.c, t.flags.v)) =
    some (102, true, false, false, false) := by decide
theorem test_br : after (ready 0x7042 9 0x01 0x02) (fun t => (t.pc, t.ifid.valid, t.idex.valid)) = some (0x0102, false, false) := by decide
theorem test_beqz_wraps : after (ready 0x407E 0 0 0) (fun t => t.pc) = some 65535 := by decide
theorem test_reserved : after (ready 0xC041 9 0x55 0) (fun t => (t.readReg 1, t.flags, t.pc, t.ifid.valid, t.idex.valid)) =
    some (0x55, flagsLogic Config.nopResult, 11, true, false) := rfl

/-! ### Fetch (95_test_vectors.md section 3.12) -/

/-- The counter at `p`, the word `w` at index `a`, nothing in flight. -/
def fetching (p : Word) (a : Nat) (w : Word) : State := (State.reset.withImem (Memory.write [] a w)).withPc p

theorem test_fetch_word : ((fetching 5 5 0x3045).fetchStage.ifid, (fetching 5 5 0x3045).fetchStage.pc) =
    ({ instr := 0x3045, pc := 5, valid := true }, 6) := by decide
theorem test_fetch_sentinel : (fetching 5 6 0x3045).fetchStage.pc = 1024 ∧ (fetching 5 6 0x3045).fetchStage.ifid.valid = false := by decide
theorem test_fetch_last : (fetching 1023 1023 0x3045).fetchStage.ifid.pc = 1023 ∧ (fetching 1023 1023 0x3045).fetchStage.pc = 1024 := by decide
theorem test_fetch_beyond : (fetching 1024 5 0x3045).fetchStage = fetching 1024 5 0x3045 := by decide

/-- Placing a word gives what two cycles from reset give with that program loaded (but for the shadow record). -/
theorem test_withFetchWord : (State.reset.withFetchWord 16 0x3045).withExs State.reset.exs =
    ((State.reset.loadProgram [0x3045]).frontEnd.frontEnd).withExs State.reset.exs := by decide

/-! ### Boundaries of the clauses over one input -/

theorem test_shift_left_bounds : shiftLeft 0x81 0 = 0x81 ∧ shiftLeft 0x81 7 = 0x80 ∧ shiftLeft 0xFF 8 = 0 ∧ shiftLeft 0xFF 31 = 0 := by decide
theorem test_shift_right_bounds : shiftRightArith 0xF5 0 = 0xF5 ∧ shiftRightArith 0x81 7 = 0xFF ∧
    shiftRightArith 0x7F 7 = 0 ∧ shiftRightArith 0x80 8 = 0xFF ∧ shiftRightArith 0x7F 31 = 0 := by decide
theorem test_data_bounds : (State.reset.memWrite 2047 5).memRead 2047 = 5 ∧ State.reset.memWrite 2048 5 = State.reset ∧
    State.reset.memWrite (-1) 5 = State.reset ∧ (State.reset.memWrite 0 5).memRead 0 = 5 := by decide
theorem test_memory_canonical : Memory.write [(3, 0x11#8), (9, 0x22#8)] 5 0x33#8 = [(3, 0x11#8), (5, 0x33#8), (9, 0x22#8)] ∧
    Memory.write [(3, 0x11#8), (9, 0x22#8)] 3 0#8 = [(9, 0x22#8)] := by decide
theorem witness_valid_opcodes : (0x3FDF#16).toNat / 4096 < 12 ∧ immOf 0x3FDF = 31 ∧ immOf 0xBFE0 = -32 ∧
    (0xBFE0#16).toNat / 4096 < 12 ∧ (rtOf 0x7FFF).val = 63 ∧ immOf 0x7FFF = 0 := by decide
theorem witness_reserved_opcodes : 12 ≤ (0xC000#16).toNat / 4096 ∧ 12 ≤ (0xFFFF#16).toNat / 4096 ∧ rtOf 0xFFFF = 63 := by decide
theorem witness_immediates : sext6 (decodeFields (encodeFields 9 63 (-32))).2.2 = -32 ∧ sext6 (decodeFields (encodeFields 9 63 31)).2.2 = 31 := by decide
theorem witness_movi_values : immByte (-32) = 0xE0 ∧ immByte (-1) = 0xFF ∧ immByte 0 = 0 ∧ immByte 31 = 0x1F := by decide
theorem witness_andi_masks : (0xAB#8 &&& immByte 31).toNat < 32 ∧ (0xAB#8 &&& immByte (-32)).toNat / 32 = (0xAB#8).toNat / 32 := by decide

/-! ### Witnesses of the hypotheses of the statements about a cycle -/

/-- Two instructions in flight, the program `MOVI R1 5; ADD R1 R2; EOR R3 R1` loaded. -/
def twoInFlight : State := (State.reset.loadProgram [0x3045, 0x0042, 0x60C1]).frontEnd.frontEnd

theorem witness_invariant : twoInFlight.Inv ∧ twoInFlight.idex.valid = true ∧ twoInFlight.ifid.valid = true := by
  refine ⟨⟨by unfold State.RegZeroClear; decide, by unfold State.StoresCanonical; decide,
    by unfold State.SnapshotCurrent; decide, by unfold State.InFlightPlaced State.PlacedAt; decide,
    by unfold State.InFlightConsecutive; decide⟩, by decide, by decide⟩
/-- The last word in flight with Fetch at the bound: the third clause of what is in flight. -/
theorem witness_invariant_drained : (State.reset.loadProgram [0x3045]).frontEnd.frontEnd.InFlightConsecutive ∧
    (State.reset.loadProgram [0x3045]).frontEnd.frontEnd.ifid.valid = false ∧
    (State.reset.loadProgram [0x3045]).frontEnd.frontEnd.idex.valid = true := by
  unfold State.InFlightConsecutive; decide
theorem witness_snapshot_current : (ready 0xB05F 9 0x01 0).SnapshotCurrent ∧ (ready 0xB05F 9 0x01 0).idex.valid = true := by
  unfold State.SnapshotCurrent; decide
theorem witness_latched_word : (0x3045 : Word) ≠ 0 ∧ twoInFlight.idex = twoInFlight.decodedLatch 0x3045 0 := by decide
theorem witness_empty_latch : State.reset.idex.valid = false := by decide
theorem witness_word_at_counter : (fetching 1023 1023 0x3045).ifid.valid = false ∧ (fetching 1023 1023 0x3045).idex.valid = false ∧
    (fetching 1023 1023 0x3045).pc.toNat < 1024 ∧ (fetching 1023 1023 0x3045).ifetch 1023 ≠ 0 := by decide
theorem witness_decode : twoInFlight.ifid.valid = true ∧ twoInFlight.transferTarget = none ∧ ∃ t, step twoInFlight = .next t :=
  ⟨by decide, by decide, _, rfl⟩
theorem witness_latched_not_sentinel : ∃ t, step twoInFlight = .next t ∧ t.ifid.valid = true ∧ t.ifid.instr = 0x60C1 :=
  ⟨_, rfl, by decide, by decide⟩
theorem witness_execute : ∃ t u, executeStage twoInFlight = .next t ∧ executeStage State.reset = .next u := ⟨_, _, rfl, rfl⟩
theorem witness_register_changes : ∃ t, step twoInFlight = .next t ∧ t.readReg 1 ≠ twoInFlight.readReg 1 := ⟨_, rfl, by decide⟩
theorem witness_flags_change : ∃ t, step (ready 0x3040 9 1 0) = .next t ∧ t.flags ≠ (ready 0x3040 9 1 0).flags :=
  ⟨_, rfl, by decide⟩
/-- The three cases of Fetch after a transfer: a word, the sentinel, the bound. -/
theorem witness_fetch_cases : (ready 0x407E 100 0 0).fetchPc = 99 ∧ (ready 0x407E 100 0 0).ifetch 99 = 0 ∧
    ((ready 0x407E 1 0 0).withImem [(0, 0x3045)]).ifetch 0 ≠ 0 ∧ ((ready 0x407E 1 0 0).withImem [(0, 0x3045)]).fetchPc = 0 ∧
    (ready 0x7042 9 0x04 0x00).fetchPc = 1024 := by decide
theorem witness_taken_transfer : ∃ t u, (ready 0x7042 9 0x03 0xFF).transferTarget = some 1023 ∧
    step (ready 0x7042 9 0x03 0xFF) = .next t ∧ step t = .next u := ⟨_, _, by decide, rfl, rfl⟩
theorem witness_transfer_out : ∃ t u, (ready 0x7042 9 0x04 0x00).transferTarget = some 1024 ∧
    step (ready 0x7042 9 0x04 0x00) = .next t ∧ step t = .next u := ⟨_, _, by decide, rfl, rfl⟩
theorem witness_transfer_to_sentinel : ∃ t u, (ready 0x407E 100 0 0).transferTarget = some 99 ∧
    (ready 0x407E 100 0 0).ifetch 99 = 0 ∧ step (ready 0x407E 100 0 0) = .next t ∧ step t = .next u :=
  ⟨_, _, by decide, by decide, rfl, rfl⟩
theorem witness_register_zero : Opcode.ldr ∈ [Opcode.add, .sub, .mul, .movi, .andi, .eor, .sal, .sar, .ldr] ∧
    ∃ t, step twoInFlight = .next t ∧ t.regs[0] = 0 := ⟨by decide, _, rfl, by decide⟩
theorem witness_idle : (State.reset.withPc 1024).idle = true ∧ (State.reset.withPc 65535).terminated = true := by decide
theorem witness_high_data : ∃ t, (ready 0xB05F 9 0x01 0).SnapshotCurrent ∧ step (ready 0xB05F 9 0x01 0) = .next t ∧
    t.memRead 31 = 1 ∧ t.memRead 32 = 0 :=
  ⟨_, by unfold State.SnapshotCurrent; decide, rfl, by decide, by decide⟩
theorem witness_ram_port : (ready 0xB05F 9 0x01 0).ramPort = 
      { addr := 31, readEnable := false, writeEnable := true, writeData := 1, readData := 0 } ∧
    (ready 0xA07F 9 0x01 0).ramPort.readEnable = false ∧ (ready 0xA07F 9 0x01 0).ramPort.readData = 0 := by decide
/-- An LDR of entry 31 that holds 0xAA, and one of address -1. -/
theorem witness_ram_read :
    ((ready 0xA05F 9 0x01 0).memWrite 31 0xAA).ramPort = { addr := 31, readEnable := true, writeEnable := false, writeData := 1, readData := 0xAA } ∧
    (∃ t, step ((ready 0xA05F 9 0x01 0).memWrite 31 0xAA) = .next t ∧ t.readReg 1 = 0xAA) ∧
    ∃ t, (ready 0xA07F 9 0x01 0).idex.imm = -1 ∧ step (ready 0xA07F 9 0x01 0) = .next t ∧ t.readReg 1 = 0 :=
  ⟨by decide, ⟨_, rfl, by decide⟩, _, by decide, rfl, by decide⟩
/-- The ROM port at index 1023 on a word and on the sentinel, and not enabled at 1024. -/
theorem witness_rom_port : (fetching 1023 5 0x3045).romPort.readData = 0 ∧ (fetching 1023 5 0x3045).romPort.enable = true ∧
    (fetching 1023 1023 0x3045).romPort = { enable := true, addr := 1023, readData := 0x3045 } ∧
    (State.reset.withPc 1024).romPort.enable = false := by decide
theorem witness_decode_stage : twoInFlight.ifid.valid = true ∧ State.reset.ifid.valid = false := by decide
theorem witness_sentinel_fetch : (fetching 1023 5 0x3045).pc.toNat < 1024 ∧ (fetching 1023 5 0x3045).ifetch 1023 = 0 := by decide
theorem witness_placed_word : ∃ t u, step (State.reset.withFetchWord 16 65535) = .next t ∧ t.exs.instr = 0xFFFF ∧
    step (State.reset.withFetchWord 16 0) = .next u ∧ u.pc = 1024 := ⟨_, _, rfl, by decide, rfl, by decide⟩
theorem witness_wellFormed : WellFormed (.sar 63 (-32)) ∧ WellFormed (.movi 63 31) ∧ WellFormed .sentinel := by decide
theorem witness_loader : ((State.reset.loadProgram [0x3045, 0, 0x0042]).ifetch 2, (State.reset.loadProgram [0x3045, 0, 0x0042]).ifetch 1,
    (State.reset.loadProgram [0x3045]).ifetch 1023) = (0x0042, 0, 0) := by decide

end Sys2Proof.Tests
end

/-!
SUPPORT and proofs, family 10_state: what Execute can do to the state said once (`ExecuteEffect`), what Decode and Fetch
make of the state Execute left, and the statements that follow: the store frames, register 0, and the machine's
invariant.
-/

namespace Sys2Proof.Machine

/-! ### What Execute can do -/

/-- The nine opcodes whose execution ends in the common path with the register write enabled (40_pipeline.md R75). -/
abbrev writingOpcodes : List Opcode := [.add, .sub, .mul, .movi, .andi, .eor, .sal, .sar, .ldr]

/-- Every state that Execute can leave of `s`, with the guard under which it leaves it (40_pipeline.md R72 to R75,
R83). -/
inductive ExecuteEffect (s : State) : State → Prop
  | empty (hv : s.idex.valid = false) : ExecuteEffect s s
  | write (hv : s.idex.valid = true) (hop : s.idex.opcode ∈ writingOpcodes) (result : Byte) (f : Flags) :
      ExecuteEffect s (s.finishWrite s.idex.rs result f)
  | noWrite (hv : s.idex.valid = true) (htarget : s.transferTarget = none) : ExecuteEffect s (s.finishNoWrite flagsNop)
  | transfer (hv : s.idex.valid = true) (target : Word) (htarget : s.transferTarget = some target) :
      ExecuteEffect s (s.redirect target)
  | store (hv : s.idex.valid = true) (hop : s.idex.opcode = .str) :
      ExecuteEffect s (s.memWrite s.idex.imm (s.readReg s.idex.rs)).invalidateIdex

/-- The result and the flags of a writing instruction do not depend on its destination. -/
theorem exec_writing {op : Opcode} (hop : op ∈ writingOpcodes) (s : State) (rt : RegIdx) (imm : Int) :
    ∃ result f, ∀ rs : RegIdx, exec (Instr.ofFields op rs rt imm) s = .next (s.finishWrite rs result f) := by
  fin_cases hop <;> exact ⟨_, _, fun _ => rfl⟩

/-- BEQZ decides on the live value of its source register (44_branch.md R130). -/
theorem exec_beqz (rs rt : RegIdx) (imm : Int) (s : State) : exec (Instr.ofFields .beqz rs rt imm) s =
    if s.readReg rs = 0 then .next (s.redirect (relativeTarget s.idex.pc imm))
    else .next (s.finishNoWrite flagsNop) := rfl

/-- Execute has no effect but those of `ExecuteEffect`. -/
theorem executeStage_effect {s t : State} (h : executeStage s = .next t) : ExecuteEffect s t := by
  by_cases hv : s.idex.valid = true
  · rw [executeStage_valid hv, DecodeExecuteLatch.instruction] at h
    by_cases hw : s.idex.opcode ∈ writingOpcodes
    · obtain ⟨result, f, hexec⟩ := exec_writing hw s s.idex.rt s.idex.imm
      rw [hexec] at h
      cases h
      exact .write hv hw result f
    · cases hop : s.idex.opcode <;> rw [hop] at h hw
      case beqz =>
        rw [exec_beqz] at h
        split at h <;> cases h
        · next hz => exact .transfer hv _ (by simp [State.transferTarget, hv, hop, hz])
        · next hz =>
          exact .noWrite hv (by rw [State.transferTarget, if_neg (by simp [hop]), if_neg fun hb => hz hb.2.2])
      case br => cases h; exact .transfer hv _ (by simp [State.transferTarget, hv, hop])
      case str => cases h; exact .store hv hop
      case reserved12 | reserved13 | reserved14 | reserved15 =>
        cases h; exact .noWrite hv (by simp [State.transferTarget, hop])
      all_goals simp at hw
  · rw [Bool.not_eq_true] at hv
    rw [executeStage_empty hv] at h
    cases h
    exact .empty hv

/-- A cycle is one effect of Execute on the snapshot, then Decode and Fetch (R70). -/
theorem step_effect {s t : State} (h : step s = .next t) : ∃ u, ExecuteEffect s.snapshot u ∧ t = u.frontEnd := by
  obtain ⟨u, hu, rfl⟩ := step_eq.1 h
  exact ⟨u, executeStage_effect hu, rfl⟩

section
variable {s u : State} (h : ExecuteEffect s u)
include h

theorem ExecuteEffect.regs_zero : u.regs[0] = s.regs[0] := by
  cases h <;> simp

theorem ExecuteEffect.imem_eq : u.imem = s.imem := by
  cases h <;> simp

theorem ExecuteEffect.exs_eq : u.exs = s.exs := by
  cases h <;> simp

/-- Execute leaves its latch empty (R82). -/
theorem ExecuteEffect.idex_empty : u.idex.valid = false := by
  cases h with
  | empty hv => exact hv
  | write | noWrite | transfer | store => simp

/-- A word that is still in IFID after Execute is the one that was there, and no transfer moved the counter (R83). -/
theorem ExecuteEffect.front_of_ifid_valid (hu : u.ifid.valid = true) : u.ifid = s.ifid ∧ u.pc = s.pc := by
  cases h with
  | transfer => simp at hu
  | empty | write | noWrite | store => simp

theorem ExecuteEffect.dmem_wf (hs : Memory.wf Config.dBound s.dmem = true) :
    Memory.wf Config.dBound u.dmem = true := by
  cases h with
  | store => exact s.memWrite_wf _ _ hs
  | empty | write | noWrite | transfer => simpa using hs

/-- Only STR changes the data store (R17). -/
theorem ExecuteEffect.memRead_of_not_store (hs : ¬(s.idex.valid = true ∧ s.idex.opcode = .str)) (a : Int) :
    u.memRead a = s.memRead a := by
  cases h with
  | store hv hop => exact absurd ⟨hv, hop⟩ hs
  | empty | write | noWrite | transfer => simp

/-- Only the write-back of a writing instruction changes a register, its destination alone (R10, R11). -/
theorem ExecuteEffect.of_readReg_ne {r : RegIdx} (hr : u.readReg r ≠ s.readReg r) :
    s.idex.valid = true ∧ r = s.idex.rs ∧ r ≠ 0 ∧ s.idex.opcode ∈ writingOpcodes := by
  cases h with
  | write hv hop =>
    rw [State.readReg_finishWrite] at hr
    split at hr
    · next hrs => exact ⟨hv, hrs.1, hrs.2, hop⟩
    · exact absurd rfl hr
  | empty | noWrite | transfer | store => simp at hr

end

/-- What Execute leaves of a valid latch with STR: the live register at the immediate (43_memory_ops.md R121). -/
theorem executeStage_str {s : State} (hv : s.idex.valid = true) (hop : s.idex.opcode = .str) :
    executeStage s = .next (s.memWrite s.idex.imm (s.readReg s.idex.rs)).invalidateIdex := by
  rw [executeStage_valid hv, DecodeExecuteLatch.instruction, hop]
  rfl

/-! ### What Decode and Fetch make of the state Execute left -/

section
variable (s : State)

/-- Decode consumes IFID (40_pipeline.md R85). -/
theorem State.decodeStage_ifid_empty : s.decodeStage.ifid.valid = false := by
  cases hv : s.ifid.valid with
  | false => rw [s.decodeStage_empty hv, hv]
  | true => rw [s.decodeStage_valid hv]; rfl

@[simp] theorem State.ifetch_decodeStage (n : Nat) : s.decodeStage.ifetch n = s.ifetch n := by simp [State.ifetch]

@[simp] theorem State.fetchEnabled_decodeStage : s.decodeStage.fetchEnabled = s.fetchEnabled := by
  simp [State.fetchEnabled]

@[simp] theorem State.frontEnd_idex : s.frontEnd.idex = s.decodeStage.idex := by simp [State.frontEnd]

/-- What Fetch leaves of the counter and of IFID, in its three cases (R87). -/
theorem State.frontEnd_cases :
    (1024 ≤ s.pc.toNat ∧ s.frontEnd.ifid.valid = false ∧ s.frontEnd.pc = s.pc) ∨
    (s.pc.toNat < 1024 ∧ s.ifetch s.pc.toNat = 0 ∧ s.frontEnd.ifid.valid = false ∧ s.frontEnd.pc = 1024) ∨
    (s.pc.toNat < 1024 ∧ s.ifetch s.pc.toNat ≠ 0 ∧
      s.frontEnd.ifid = { instr := s.ifetch s.pc.toNat, pc := s.pc, valid := true } ∧ s.frontEnd.pc = s.pc + 1) := by
  unfold State.frontEnd
  cases hon : s.fetchEnabled with
  | false =>
    have hpc : ¬s.pc.toNat < 1024 := fun hlt => by simp [(s.fetchEnabled_iff).2 hlt] at hon
    rw [s.decodeStage.fetchStage_off (by simpa using hon)]
    exact .inl ⟨by omega, s.decodeStage_ifid_empty, s.decodeStage_pc⟩
  | true =>
    have hpc := s.fetchEnabled_iff.1 hon
    by_cases hw : s.ifetch s.pc.toNat = 0
    · rw [s.decodeStage.fetchStage_sentinel (by simpa using hon) (by simpa using hw)]
      exact .inr (.inl ⟨hpc, hw, s.decodeStage_ifid_empty, rfl⟩)
    · rw [s.decodeStage.fetchStage_word (by simpa using hon) (by simpa using hw)]
      exact .inr (.inr ⟨hpc, hw, by simp, by simp⟩)

/-- A word latched by Decode into an empty decode-execute latch is the one IFID held. -/
theorem State.frontEnd_idex_of_valid (hempty : s.idex.valid = false) (hv : s.frontEnd.idex.valid = true) :
    s.ifid.valid = true ∧ s.frontEnd.idex = s.decodedLatch s.ifid.instr s.ifid.pc := by
  rw [State.frontEnd_idex] at hv ⊢
  cases hi : s.ifid.valid with
  | false => rw [s.decodeStage_empty hi, hempty] at hv; cases hv
  | true => rw [s.decodeStage_valid hi]; exact ⟨rfl, rfl⟩

end

/-- What Decode latches depends on the state by its registers alone. -/
theorem State.decodedLatch_congr {s t : State} (h : t.regs = s.regs) (w p : Word) :
    t.decodedLatch w p = s.decodedLatch w p := by
  simp [State.decodedLatch, State.readReg, h]

/-- Where a word stands depends on the state by its instruction store alone. -/
theorem State.placedAt_congr {s t : State} (h : t.imem = s.imem) (w p : Word) : t.PlacedAt w p ↔ s.PlacedAt w p := by
  simp [State.PlacedAt, State.ifetch, h]

/-! ### The invariant along the front end -/

section
variable {u : State} (hempty : u.idex.valid = false)
include hempty

/-- Behind an empty decode-execute latch Decode takes snapshots of the registers as the cycle leaves them (R93). -/
theorem State.frontEnd_snapshotCurrent : u.frontEnd.SnapshotCurrent := by
  intro hv
  obtain ⟨-, hidex⟩ := u.frontEnd_idex_of_valid hempty hv
  rw [hidex]
  exact (State.decodedLatch_congr u.frontEnd_regs _ _).symm

/-- The two latches hold words of the program after the front end if IFID did before it. -/
theorem State.frontEnd_inFlightPlaced (hifid : u.ifid.valid = true → u.PlacedAt u.ifid.instr u.ifid.pc)
    (hexs : u.exs.valid = true → u.PlacedAt u.exs.instr u.exs.pc) : u.frontEnd.InFlightPlaced := by
  simp only [State.InFlightPlaced, State.placedAt_congr u.frontEnd_imem, State.frontEnd_exs]
  refine ⟨fun hv => ?_, fun hv => ?_, hexs⟩
  · obtain ⟨-, hnone, -⟩ | ⟨-, -, hnone, -⟩ | ⟨hpc, hw, hfetched, -⟩ := u.frontEnd_cases
    · rw [hnone] at hv; cases hv
    · rw [hnone] at hv; cases hv
    · rw [hfetched]; exact ⟨hpc, rfl, hw⟩
  · obtain ⟨hi, hidex⟩ := u.frontEnd_idex_of_valid hempty hv
    rw [hidex]; exact hifid hi

/-- The front end keeps what is in flight consecutive: the word Decode took stands just before the counter that Fetch
used. -/
theorem State.frontEnd_inFlightConsecutive (hifid : u.ifid.valid = true → u.ifid.pc.toNat < 1024)
    (hpc : u.ifid.valid = true → u.pc = u.ifid.pc + 1) : u.frontEnd.InFlightConsecutive := by
  have hdecoded (hv : u.frontEnd.idex.valid = true) :
      u.frontEnd.idex.pc.toNat < 1024 ∧ u.pc = u.frontEnd.idex.pc + 1 := by
    obtain ⟨hi, hidex⟩ := u.frontEnd_idex_of_valid hempty hv
    rw [hidex]; exact ⟨hifid hi, hpc hi⟩
  obtain ⟨hoff, hnone, hstay⟩ | ⟨-, hzero, hnone, hclamp⟩ | ⟨-, -, hfetched, hnext⟩ := u.frontEnd_cases
  · refine ⟨by simp [hnone], by simp [hnone], fun hv _ => ?_⟩
    obtain ⟨hlt, hd⟩ := hdecoded hv
    have hbound : u.frontEnd.idex.pc + 1 = 1024 := by rw [hd] at hoff; bv_omega
    exact ⟨by rw [hstay, hd, hbound], .inl hbound⟩
  · refine ⟨by simp [hnone], by simp [hnone], fun hv _ => ⟨hclamp, .inr ?_⟩⟩
    rw [← (hdecoded hv).2, State.ifetch_frontEnd, hzero]
  · refine ⟨fun _ => by rw [hfetched, hnext], fun hv _ => ?_, by simp [hfetched]⟩
    rw [hfetched]; exact (hdecoded hv).2

end

/-! ### The RAM port -/

theorem State.ramPort_writeEnable_iff (s : State) : s.ramPort.writeEnable = true ↔
    (s.idex.valid = true ∧ s.idex.opcode = .str) ∧ dataAddrInRange s.idex.imm = true := by
  simp [State.ramPort]

theorem State.ramPort_readEnable_iff (s : State) : s.ramPort.readEnable = true ↔
    (s.idex.valid = true ∧ s.idex.opcode = .ldr) ∧ dataAddrInRange s.idex.imm = true := by
  simp [State.ramPort]

/-- A store is the RAM port's write: in range the port's address is the immediate, out of range the port is off (R33,
R46). -/
theorem State.memRead_memWrite_ramPort {s : State} (hs : s.idex.valid = true ∧ s.idex.opcode = .str) (a : Int) :
    (s.memWrite s.idex.imm (s.readReg s.idex.rs)).memRead a =
      if s.ramPort.writeEnable = true ∧ a = s.ramPort.addr.toNat then s.ramPort.writeData else s.memRead a := by
  simp only [State.memRead_memWrite, State.ramPort_writeEnable_iff, State.ramPort_writeData]
  by_cases hr : dataAddrInRange s.idex.imm = true
  · have haddr : (s.ramPort.addr.toNat : Int) = s.idex.imm := by
      rw [s.ramPort_addr_toNat hr]
      exact Int.toNat_of_nonneg ((dataAddrInRange_iff _).1 hr).1
    simp only [hs, hr, haddr, and_self, and_true, true_and]
  · simp [hr]

/-! ### Two frames of the cycle -/

theorem step_regs_zero {s t : State} (h : step s = .next t) : t.regs[0] = s.regs[0] := by
  obtain ⟨u, hu, rfl⟩ := step_effect h
  rw [State.frontEnd_regs]
  exact hu.regs_zero

theorem step_imem {s t : State} (h : step s = .next t) : t.imem = s.imem := by
  obtain ⟨u, hu, rfl⟩ := step_effect h
  rw [State.frontEnd_imem]
  exact hu.imem_eq

/-! ### The statements -/

/-- Settles O48: Execute keeps every clause for IFID and the stores and empties IDEX; the front end restores
the rest. -/
theorem everyStepKeepsTheInvariant : Obligations.EveryStepKeepsTheInvariant := by
  intro s t hs h
  obtain ⟨hzero, ⟨himem, hdmem⟩, -, ⟨hifid, hidex, -⟩, ⟨hnext, -, -⟩⟩ := hs
  have hcell := step_regs_zero h
  have hstore := step_imem h
  obtain ⟨u, hu, rfl⟩ := step_effect h
  have hplaced (w p : Word) : u.PlacedAt w p ↔ s.PlacedAt w p := State.placedAt_congr hu.imem_eq w p
  have hfront (hv : u.ifid.valid = true) : s.ifid.valid = true ∧ u.ifid = s.ifid ∧ u.pc = s.pc := by
    obtain ⟨hi, hp⟩ := hu.front_of_ifid_valid hv
    exact ⟨by rwa [hi] at hv, hi, hp⟩
  have hifid' (hv : u.ifid.valid = true) : u.PlacedAt u.ifid.instr u.ifid.pc := by
    obtain ⟨hsv, hi, -⟩ := hfront hv
    rw [hplaced, hi]; exact hifid hsv
  refine ⟨hcell.trans hzero, ⟨hstore ▸ himem, ?_⟩, State.frontEnd_snapshotCurrent hu.idex_empty,
    State.frontEnd_inFlightPlaced hu.idex_empty hifid' ?_,
    State.frontEnd_inFlightConsecutive hu.idex_empty (fun hv => (hifid' hv).1) fun hv => ?_⟩
  · rw [State.frontEnd_dmem]; exact hu.dmem_wf hdmem
  · rw [hu.exs_eq]; exact fun hv => (hplaced _ _).2 (hidex hv)
  · obtain ⟨hsv, hi, hp⟩ := hfront hv
    rw [hi, hp]; exact hnext hsv

/-- Settles O39: the register write skips cell 0, and a writing instruction's flags do not depend on its destination. -/
theorem registerZeroIsNeverWritten : Obligations.RegisterZeroIsNeverWritten := by
  refine ⟨fun s t h => ⟨step_regs_zero h, s.readReg_zero, t.readReg_zero⟩, fun s op r rt imm hop => ?_⟩
  obtain ⟨result, f, hexec⟩ := exec_writing hop s rt imm
  exact ⟨_, _, hexec 0, hexec r, by simp [State.writeReg], by simp⟩

/-- Settles O40: Decode and Fetch write no register, and of Execute's effects only the write-back does. -/
theorem onlyTheSourceRegisterChanges : Obligations.OnlyTheSourceRegisterChanges := by
  intro s t r h hr
  obtain ⟨u, hu, rfl⟩ := step_effect h
  rw [State.readReg_frontEnd] at hr
  exact hu.of_readReg_ne hr

/-- Settles O43: no effect of Execute and neither front-end stage writes the instruction store. -/
theorem instructionStoreIsConstant : Obligations.InstructionStoreIsConstant := by
  intro s t h
  have himem := step_imem h
  exact ⟨himem, fun a => congrArg (Memory.read · a) himem⟩

/-- Settles O44: a cycle with STR is the port's write, any other cycle leaves the store and the port's write enable
off. -/
theorem dataStoreFollowsTheRamPort : Obligations.DataStoreFollowsTheRamPort := by
  intro s t h
  constructor
  · intro a
    by_cases hs : s.idex.valid = true ∧ s.idex.opcode = .str
    · obtain ⟨u, hu, rfl⟩ := step_eq.1 h
      rw [executeStage_str (s := s.snapshot) hs.1 hs.2] at hu
      cases hu
      rw [State.memRead_frontEnd, State.memRead_invalidateIdex]
      exact State.memRead_memWrite_ramPort (s := s.snapshot) hs a
    · obtain ⟨u, hu, rfl⟩ := step_effect h
      rw [State.memRead_frontEnd, hu.memRead_of_not_store hs, State.memRead_snapshot, if_neg]
      exact fun hw => hs (s.ramPort_writeEnable_iff.1 hw.1).1
  · rw [State.ramPort_readEnable_iff, State.ramPort_writeEnable_iff]
    rintro ⟨⟨⟨-, hldr⟩, -⟩, ⟨⟨-, hstr⟩, -⟩⟩
    rw [hldr] at hstr
    cases hstr

end Sys2Proof.Machine

/-!
SUPPORT and proofs, family 30_encoding: the laws of the field codec, every instruction other than the sentinel as a row
applied to fields (`Instr.ofFields`), the fields of a word as numbers, and the statements that follow.
-/

namespace Sys2Proof

/-! ### Packing and unpacking fields -/

/-- R63, first law: each field comes back masked to its width. -/
theorem decodeFields_encodeFields (opcode rs : Nat) (v : Int) :
    decodeFields (encodeFields opcode rs v) = (BitVec.ofNat 4 opcode, BitVec.ofNat 6 rs, BitVec.ofInt 6 v) := by
  obtain ⟨-, hrs, hlow⟩ := decodeFields_toNat (encodeFields opcode rs v)
  rw [encodeFields_toNat] at hrs hlow
  refine Prod.ext (Laws.opcode_encodeFields opcode rs v) (Prod.ext ?_ ?_) <;> apply BitVec.eq_of_toNat_eq
  · rw [hrs, BitVec.toNat_ofNat]
    omega
  · rw [hlow, BitVec.toNat_ofInt]
    omega

/-- R63, second law, for any numbers that the three fields of the word are the masked values of. -/
theorem encodeFields_eq_of_decodeFields {w : Word} {opcode rs : Nat} {v : Int}
    (h : decodeFields w = (BitVec.ofNat 4 opcode, BitVec.ofNat 6 rs, BitVec.ofInt 6 v)) :
    encodeFields opcode rs v = w := by
  obtain ⟨hop, hrs, hlow⟩ := decodeFields_toNat w
  simp only [h, BitVec.toNat_ofNat, BitVec.toNat_ofInt] at hop hrs hlow
  apply BitVec.eq_of_toNat_eq
  rw [encodeFields_toNat]
  omega

theorem sext6_ofInt {v : Int} (hlo : -32 ≤ v) (hhi : v ≤ 31) : sext6 (BitVec.ofInt 6 v) = v := by
  rw [sext6, BitVec.toInt_ofInt]
  exact Int.bmod_eq_of_le (by omega) (by omega)

theorem regOfBits_ofNat (r : RegIdx) : regOfBits (BitVec.ofNat 6 r.val) = r := Fin.ext (Nat.mod_eq_of_lt r.isLt)

theorem ofNat_regOfBits (b : BitVec 6) : BitVec.ofNat 6 (regOfBits b).val = b :=
  BitVec.eq_of_toNat_eq (Nat.mod_eq_of_lt b.isLt)

/-! ### Instructions as rows applied to fields -/

/-- The number in the low six bits of a row's word: the immediate or the second register's index, by its class (R52). -/
def Opcode.lowField (op : Opcode) (rt : RegIdx) (imm : Int) : Int := if op.immediateClass then imm else rt.val

theorem Instr.eq_sentinel_or_eq_ofFields (i : Instr) :
    i = .sentinel ∨ ∃ op rs rt imm, i = Instr.ofFields op rs rt imm := by
  cases i with
  | sentinel => exact .inl rfl
  | add rs rt => exact .inr ⟨.add, rs, rt, 0, rfl⟩
  | sub rs rt => exact .inr ⟨.sub, rs, rt, 0, rfl⟩
  | mul rs rt => exact .inr ⟨.mul, rs, rt, 0, rfl⟩
  | eor rs rt => exact .inr ⟨.eor, rs, rt, 0, rfl⟩
  | br rs rt => exact .inr ⟨.br, rs, rt, 0, rfl⟩
  | reserved12 rs rt => exact .inr ⟨.reserved12, rs, rt, 0, rfl⟩
  | reserved13 rs rt => exact .inr ⟨.reserved13, rs, rt, 0, rfl⟩
  | reserved14 rs rt => exact .inr ⟨.reserved14, rs, rt, 0, rfl⟩
  | reserved15 rs rt => exact .inr ⟨.reserved15, rs, rt, 0, rfl⟩
  | movi rs imm => exact .inr ⟨.movi, rs, 0, imm, rfl⟩
  | beqz rs imm => exact .inr ⟨.beqz, rs, 0, imm, rfl⟩
  | andi rs imm => exact .inr ⟨.andi, rs, 0, imm, rfl⟩
  | sal rs imm => exact .inr ⟨.sal, rs, 0, imm, rfl⟩
  | sar rs imm => exact .inr ⟨.sar, rs, 0, imm, rfl⟩
  | ldr rs imm => exact .inr ⟨.ldr, rs, 0, imm, rfl⟩
  | str rs imm => exact .inr ⟨.str, rs, 0, imm, rfl⟩

section
variable (op : Opcode) (rs rt : RegIdx) (imm : Int)

/-- A row ignores the field that is not of its class. -/
theorem Instr.ofFields_masked :
    Instr.ofFields op rs (if op.immediateClass then 0 else rt) (if op.immediateClass then imm else 0) =
      Instr.ofFields op rs rt imm := by
  cases op <;> rfl

theorem encode_ofFields : encode (Instr.ofFields op rs rt imm) = encodeFields op.code rs.val (op.lowField rt imm) := by
  cases op <;> rfl

theorem wellFormed_ofFields : WellFormed (Instr.ofFields op rs rt imm) ↔
    (op.immediateClass = true → immInRange imm = true) ∧ ¬(op = .add ∧ rs = 0 ∧ rt = 0) := by
  cases op <;> simp [WellFormed, Instr.ofFields, Instr.wellFormed, Opcode.immediateClass, or_iff_not_imp_left]

end

theorem Opcode.immediateClass_iff (op : Opcode) : op.immediateClass = true ↔ op.code ∈ [3, 4, 5, 8, 9, 10, 11] := by
  cases op <;> decide

theorem Opcode.eq_add_of_code_eq_zero {op : Opcode} (h : op.code = 0) : op = .add := by
  rw [← Opcode.ofBits_code op, h]
  rfl

/-! ### Decoding the word of a row -/

section
variable (op : Opcode) (rs : RegIdx) (v : Int)

theorem opcodeOf_encodeFields : opcodeOf (encodeFields op.code rs.val v) = op := by
  rw [opcodeOf, decodeFields_encodeFields, Opcode.ofBits_code]

theorem rsOf_encodeFields : rsOf (encodeFields op.code rs.val v) = rs := by
  rw [rsOf, decodeFields_encodeFields, regOfBits_ofNat]

end

section
variable {op : Opcode} {rs rt : RegIdx} {imm : Int}

theorem rtOf_encodeFields :
    rtOf (encodeFields op.code rs.val (op.lowField rt imm)) = if op.immediateClass then 0 else rt := by
  rw [rtOf, opcodeOf_encodeFields, decodeFields_encodeFields]
  split
  next => rfl
  next h => rw [Opcode.lowField, if_neg h, BitVec.ofInt_natCast, regOfBits_ofNat]

theorem immOf_encodeFields (h : op.immediateClass = true → immInRange imm = true) :
    immOf (encodeFields op.code rs.val (op.lowField rt imm)) = if op.immediateClass then imm else 0 := by
  rw [immOf, opcodeOf_encodeFields, decodeFields_encodeFields]
  split
  next hclass =>
    obtain ⟨hlo, hhi⟩ := (immInRange_iff imm).1 (h hclass)
    rw [Opcode.lowField, if_pos hclass, sext6_ofInt hlo hhi]
  next => rfl

/-- Only the fields of `ADD R0 R0`, which is not well-formed, pack to the sentinel's word (R58). -/
theorem encode_ofFields_ne_zero (h : WellFormed (Instr.ofFields op rs rt imm)) :
    encode (Instr.ofFields op rs rt imm) ≠ 0 := by
  rw [encode_ofFields]
  intro hzero
  have hop : op = .add := by
    rw [← opcodeOf_encodeFields op rs (op.lowField rt imm), hzero]
    rfl
  have hrs : rs = 0 := by
    rw [← rsOf_encodeFields op rs (op.lowField rt imm), hzero]
    rfl
  subst hop
  have hrt : rt = 0 := by
    have := rtOf_encodeFields (op := .add) (rs := rs) (rt := rt) (imm := imm)
    rw [hzero] at this
    exact this.symm
  exact ((wellFormed_ofFields ..).1 h).2 ⟨rfl, hrs, hrt⟩

theorem decode_encode_ofFields (h : WellFormed (Instr.ofFields op rs rt imm)) :
    decode (encode (Instr.ofFields op rs rt imm)) = Instr.ofFields op rs rt imm := by
  rw [decode, if_neg (encode_ofFields_ne_zero h), encode_ofFields, opcodeOf_encodeFields, rsOf_encodeFields,
    rtOf_encodeFields, immOf_encodeFields ((wellFormed_ofFields ..).1 h).1, Instr.ofFields_masked]

end

/-! ### The fields of a word -/

section
variable (w : Word)

theorem opcodeOf_code : (opcodeOf w).code = w.toNat / 4096 := by
  rw [opcodeOf, Opcode.code_ofBits, (decodeFields_toNat w).1]

theorem rsOf_val : (rsOf w).val = w.toNat / 64 % 64 := (decodeFields_toNat w).2.1

theorem rtOf_val : (rtOf w).val = if (opcodeOf w).immediateClass then 0 else w.toNat % 64 := by
  rw [rtOf, apply_ite Fin.val, ← (decodeFields_toNat w).2.2]
  rfl

theorem sext6_low : sext6 (decodeFields w).2.2 =
    if w.toNat % 64 < 32 then ((w.toNat % 64 : Nat) : Int) else (w.toNat % 64 : Nat) - 64 := by
  rw [sext6, BitVec.toInt_eq_toNat_cond, (decodeFields_toNat w).2.2]
  split <;> split <;> omega

/-- Either reading of the low six bits, as an index or as an immediate, keeps all of them. -/
theorem ofInt_lowField : BitVec.ofInt 6 ((opcodeOf w).lowField (rtOf w) (immOf w)) = (decodeFields w).2.2 := by
  rw [Opcode.lowField, rtOf, immOf]
  split
  next => exact BitVec.ofInt_toInt
  next => exact (BitVec.ofInt_natCast ..).trans (ofNat_regOfBits _)

theorem encodeFields_fieldsOf :
    encodeFields (opcodeOf w).code (rsOf w).val ((opcodeOf w).lowField (rtOf w) (immOf w)) = w := by
  apply encodeFields_eq_of_decodeFields
  rw [ofInt_lowField, opcodeOf, Opcode.code_ofBits, rsOf, ofNat_regOfBits, BitVec.ofNat_toNat, BitVec.setWidth_eq]

variable {w}

theorem decode_of_ne_zero (h : w ≠ 0) : decode w = Instr.ofFields (opcodeOf w) (rsOf w) (rtOf w) (immOf w) := if_neg h

theorem wellFormed_decode_of_ne_zero (h : w ≠ 0) : WellFormed (decode w) := by
  rw [decode_of_ne_zero h, wellFormed_ofFields]
  refine ⟨fun _ => immInRange_immOf w, ?_⟩
  rintro ⟨hop, hrs, hrt⟩
  rw [← encodeFields_fieldsOf w, hop, hrs, hrt] at h
  exact h (show encodeFields 0 0 0 = 0 by decide)

end

/-! ### The statements -/

/-- Settles O3: the sentinel's word is 0, and every other instruction is a row applied to fields, which its word
keeps. -/
theorem decodeEncodeInstruction : Obligations.DecodeEncodeInstruction := by
  intro i h
  obtain rfl | ⟨op, rs, rt, imm, rfl⟩ := i.eq_sentinel_or_eq_ofFields
  · rfl
  · exact decode_encode_ofFields h

/-- Settles O2: the three laws of the field codec. -/
theorem fieldCodecRoundTrip : Obligations.FieldCodecRoundTrip := by
  refine ⟨decodeFields_encodeFields, fun w => encodeFields_eq_of_decodeFields ?_, fun opcode rs i hlo hhi => ?_⟩
  · simp
  · rw [decodeFields_encodeFields, sext6_ofInt hlo hhi]

/-- Settles O4: the word 0 is the sentinel's; the fields of any other word pack to it again. -/
theorem encodeDecodeWord : Obligations.EncodeDecodeWord := by
  intro w
  by_cases h : w = 0
  · subst h
    exact ⟨rfl, rfl⟩
  · refine ⟨wellFormed_decode_of_ne_zero h, ?_⟩
    rw [decode_of_ne_zero h, encode_ofFields, encodeFields_fieldsOf]

/-- Settles O5: the seven codes listed are those of the immediate class, by which `rtOf` and `immOf` choose. -/
theorem opcodeDecidesTheForm : Obligations.OpcodeDecidesTheForm := by
  intro w _
  refine ⟨opcodeOf_code w, rsOf_val w, ?_⟩
  simp only [rtOf_val, immOf, ← opcodeOf_code, ← Opcode.immediateClass_iff, ← sext6_low]
  split
  next => exact ⟨rfl, rfl⟩
  next => exact ⟨rfl, rfl⟩

end Sys2Proof

/-!
SUPPORT and proofs, family 40_pipeline: what a transfer and its absence leave of the front of the pipeline, the cycles
that execute nothing, and the view a program has of the machine, which Decode and Fetch keep and Execute moves as the
sequential machine does.
-/

namespace Sys2Proof.Machine

/-! ### The transfer of a cycle -/

section
variable (s : State)

@[simp] theorem State.transferTarget_snapshot : s.snapshot.transferTarget = s.transferTarget := rfl

@[simp] theorem State.fetchPc_snapshot : s.snapshot.fetchPc = s.fetchPc := rfl

end

section
variable {s : State}

theorem State.idex_valid_of_transfer {target : Word} (h : s.transferTarget = some target) : s.idex.valid = true := by
  by_contra hv
  simp [State.transferTarget, hv] at h

theorem State.transferTarget_of_idex_empty (h : s.idex.valid = false) : s.transferTarget = none := by
  simp [State.transferTarget, h]

/-- Only BR and BEQZ transfer (44_branch.md R130, R131). -/
theorem State.transferTarget_of_opcode_ne (hbr : s.idex.opcode ≠ .br) (hbeqz : s.idex.opcode ≠ .beqz) :
    s.transferTarget = none := by
  simp [State.transferTarget, hbr, hbeqz]

theorem State.transferTarget_of_br (hv : s.idex.valid = true) (hop : s.idex.opcode = .br) :
    s.transferTarget = some (pairTarget s.op1 s.op2) := if_pos ⟨hv, hop⟩

theorem State.transferTarget_of_beqz (hv : s.idex.valid = true) (hop : s.idex.opcode = .beqz) : s.transferTarget =
    if s.readReg s.idex.rs = 0 then some (relativeTarget s.idex.pc s.idex.imm) else none := by
  simp [State.transferTarget, hv, hop]

theorem State.transferTarget_of_writing (h : s.idex.opcode ∈ writingOpcodes) : s.transferTarget = none :=
  State.transferTarget_of_opcode_ne (fun hop => by simp [hop] at h) fun hop => by simp [hop] at h

theorem State.transferTarget_of_str (h : s.idex.opcode = .str) : s.transferTarget = none :=
  State.transferTarget_of_opcode_ne (by simp [h]) (by simp [h])

end

section
variable {s u : State} (h : ExecuteEffect s u)
include h

/-- A taken transfer redirects the counter and empties both latches, and nothing else (R83). -/
theorem ExecuteEffect.eq_redirect {target : Word} (ht : s.transferTarget = some target) : u = s.redirect target := by
  cases h with
  | empty hv => rw [State.transferTarget_of_idex_empty hv] at ht; cases ht
  | write _ hop => rw [State.transferTarget_of_writing hop] at ht; cases ht
  | noWrite _ hnone => rw [hnone] at ht; cases ht
  | store _ hop => rw [State.transferTarget_of_str hop] at ht; cases ht
  | transfer _ _ htarget => rw [htarget] at ht; cases ht; rfl

/-- Without a transfer Execute leaves the counter and IFID as they were (R75). -/
theorem ExecuteEffect.front_of_no_transfer (ht : s.transferTarget = none) : u.ifid = s.ifid ∧ u.pc = s.pc := by
  cases h with
  | transfer _ _ htarget => rw [htarget] at ht; cases ht
  | empty | write | noWrite | store => simp

/-- Fetch uses the counter that the cycle's transfer wrote, if it took one (R70). -/
theorem ExecuteEffect.pc_eq : u.pc = s.fetchPc := by
  cases ht : s.transferTarget with
  | none => rw [(h.front_of_no_transfer ht).2, State.fetchPc, ht, Option.getD_none]
  | some target => rw [h.eq_redirect ht, State.redirect_pc, State.fetchPc, ht, Option.getD_some]

/-- Apart from STR, only the common path writes the flags (R75). -/
theorem ExecuteEffect.of_flags_ne (hne : u.flags ≠ s.flags) :
    s.idex.valid = true ∧ s.transferTarget = none := by
  cases h with
  | write hv hop => exact ⟨hv, State.transferTarget_of_writing hop⟩
  | noWrite hv hnone => exact ⟨hv, hnone⟩
  | empty | transfer | store => simp at hne

end

/-! ### Cycles that execute nothing -/

section
variable {s : State}

/-- With IDEX empty a cycle is the snapshot, Decode and Fetch (R72). -/
theorem step_of_idex_empty (h : s.idex.valid = false) : step s = .next s.snapshot.frontEnd :=
  step_eq.2 ⟨_, executeStage_empty h, rfl⟩

theorem State.idle_iff : s.idle = true ↔ s.ifid.valid = false ∧ s.idex.valid = false ∧ 1024 ≤ s.pc.toNat := by
  simp [State.idle, State.fetchEnabled, and_assoc]

theorem State.terminated_iff : s.terminated = true ↔ s.idle = true ∧ s.exs.valid = false := by
  simp [State.terminated, State.idle, and_comm, and_assoc, and_left_comm]

/-- From an idle state a cycle takes the shadow snapshot and does nothing more (R91). -/
theorem step_of_idle (h : s.idle = true) : step s = .next s.snapshot := by
  obtain ⟨hifid, hidex, hpc⟩ := State.idle_iff.1 h
  rw [step_of_idex_empty hidex, State.frontEnd, s.snapshot.decodeStage_empty hifid, State.fetchStage_off]
  exact decide_eq_false (Nat.not_lt.2 hpc)

theorem State.snapshot_terminated (h : s.idle = true) : s.snapshot.terminated = true :=
  State.terminated_iff.2 ⟨h, (State.idle_iff.1 h).2.1⟩

end

/-! ### What is decoded and fetched -/

/-- The second register and the immediate of a word as numbers, by its class (30_encoding.md R52, R57). -/
theorem rtOf_immOf_toNat (w : Word) :
    if w.toNat / 4096 ∈ [3, 4, 5, 8, 9, 10, 11] then
      rtOf w = 0 ∧ immOf w = if w.toNat % 64 < 32 then ((w.toNat % 64 : Nat) : Int) else (w.toNat % 64 : Nat) - 64
    else (rtOf w).val = w.toNat % 64 ∧ immOf w = 0 := by
  simp only [← opcodeOf_code, ← Opcode.immediateClass_iff, ← sext6_low]
  split
  next h => exact ⟨if_pos h, if_pos h⟩
  next h => exact ⟨by rw [rtOf_val, if_neg h], if_neg h⟩

section
variable (s : State)

theorem State.decodedLatch_instruction {w : Word} (hw : w ≠ 0) (p : Word) :
    (s.decodedLatch w p).instruction = decode w := (decode_of_ne_zero hw).symm

theorem State.frontEnd_idex_of_ifid_valid (h : s.ifid.valid = true) :
    s.frontEnd.idex = s.frontEnd.decodedLatch s.ifid.instr s.ifid.pc := by
  rw [State.frontEnd_idex, s.decodeStage_valid h, State.decodedLatch_congr s.frontEnd_regs]
  rfl

theorem State.frontEnd_idex_of_ifid_empty (h : s.ifid.valid = false) : s.frontEnd.idex = s.idex := by
  rw [State.frontEnd_idex, s.decodeStage_empty h]

/-- Into an empty IFID Fetch latches the data of the ROM port (20_memory.md R46, R87). -/
theorem State.fetchStage_romPort (hempty : s.ifid.valid = false) :
    if s.romPort.enable = true then
      if s.romPort.readData = 0 then s.fetchStage.ifid.valid = false ∧ s.fetchStage.pc.toNat = 1024
      else s.fetchStage.ifid = { instr := s.romPort.readData, pc := s.pc, valid := true } ∧
        s.fetchStage.pc.toNat = s.pc.toNat + 1
    else s.fetchStage = s := by
  rw [State.romPort_enable]
  split
  next hon =>
    have hpc := s.fetchEnabled_iff.1 hon
    rw [s.romPort_readData hon]
    split
    next hw => rw [s.fetchStage_sentinel hon hw]; exact ⟨hempty, rfl⟩
    next hw => rw [s.fetchStage_word hon hw]; exact ⟨rfl, by rw [State.withPc_pc]; bv_omega⟩
  next hoff => exact s.fetchStage_off (Bool.not_eq_true _ ▸ hoff)

/-- Where IDEX holds the decoding of a word, a cycle runs that word's instruction (R70, R84). -/
theorem step_of_decodedLatch {w p : Word} (hw : w ≠ 0) (h : s.idex = s.decodedLatch w p) :
    ∃ t, exec (decode w) s.snapshot = .next t ∧ step s = .next t.frontEnd := by
  have hv : s.snapshot.idex.valid = true := congrArg DecodeExecuteLatch.valid h
  obtain ⟨t, ht⟩ := executeStage_next s.snapshot
  refine ⟨t, ?_, step_eq.2 ⟨t, ht, rfl⟩⟩
  rw [← ht, executeStage_valid hv, State.snapshot_idex, h, s.decodedLatch_instruction hw]

end

/-- After a taken transfer both latches are empty when Fetch begins, so nothing is in flight but the target's word
(R83, R95). -/
theorem step_of_transfer {s t : State} {target : Word} (ht : s.transferTarget = some target) (h : step s = .next t) :
    t.idex.valid = false ∧
    ((1024 ≤ target.toNat ∧ t.ifid.valid = false ∧ t.pc = target) ∨
     (target.toNat < 1024 ∧ s.ifetch target.toNat = 0 ∧ t.ifid.valid = false ∧ t.pc = 1024) ∨
     (target.toNat < 1024 ∧ s.ifetch target.toNat ≠ 0 ∧ t.ifid.pc = target)) := by
  obtain ⟨u, hu, rfl⟩ := step_effect h
  obtain rfl := hu.eq_redirect ht
  refine ⟨by rw [State.frontEnd_idex_of_ifid_empty _ rfl]; rfl, ?_⟩
  obtain hoff | hzero | ⟨hlt, hw, hfetched, -⟩ := (s.snapshot.redirect target).frontEnd_cases
  · exact .inl hoff
  · exact .inr (.inl hzero)
  · exact .inr (.inr ⟨hlt, hw, by rw [hfetched]; rfl⟩)

/-! ### The program's view -/

/-- What of a state a program can see, with the counter given: all but the latches and the shadow record. -/
def State.viewAt (s : State) (p : Word) : State :=
  (((s.withPc p).withIfid State.reset.ifid).withIdex State.reset.idex).withExs State.reset.exs

section
variable (s : State) (p : Word)

theorem State.programView_eq : s.programView = (s.viewAt s.oldestPc).settled := rfl

@[simp] theorem State.viewAt_pc : (s.viewAt p).pc = p := rfl
@[simp] theorem State.readReg_viewAt (r : RegIdx) : (s.viewAt p).readReg r = s.readReg r := rfl
@[simp] theorem State.memRead_viewAt (a : Int) : (s.viewAt p).memRead a = s.memRead a := rfl
@[simp] theorem State.ifetch_viewAt (n : Nat) : (s.viewAt p).ifetch n = s.ifetch n := rfl

end

/-- The view depends on registers, flags and stores alone. -/
theorem State.viewAt_congr {s t : State} (hregs : t.regs = s.regs) (hflags : t.flags = s.flags)
    (himem : t.imem = s.imem) (hdmem : t.dmem = s.dmem) (p : Word) : t.viewAt p = s.viewAt p := by
  simp [State.viewAt, State.withPc, State.withIfid, State.withIdex, State.withExs, hregs, hflags, himem, hdmem]

section
variable {s : State} {p : Word}

theorem State.settled_viewAt_sentinel (hp : p.toNat < 1024) (hw : s.ifetch p.toNat = 0) :
    (s.viewAt p).settled = s.viewAt 1024 :=
  if_pos ⟨(State.fetchEnabled_iff _).2 hp, hw⟩

theorem State.settled_viewAt_of_not_sentinel (h : ¬(p.toNat < 1024 ∧ s.ifetch p.toNat = 0)) :
    (s.viewAt p).settled = s.viewAt p :=
  if_neg fun hs => h ⟨(State.fetchEnabled_iff _).1 hs.1, hs.2⟩

/-- The bound is where a counter at the sentinel settles, so from there the view is the same. -/
theorem State.settled_viewAt_bound (h : p = 1024 ∨ p.toNat < 1024 ∧ s.ifetch p.toNat = 0) :
    (s.viewAt 1024).settled = (s.viewAt p).settled := by
  obtain rfl | ⟨hp, hw⟩ := h
  · rfl
  · rw [State.settled_viewAt_sentinel hp hw, State.settled_viewAt_of_not_sentinel (by simp)]

end

section
variable {s : State}

theorem State.oldestPc_of_idex (hd : s.idex.valid = true) : s.oldestPc = s.idex.pc := by simp [State.oldestPc, hd]

theorem State.oldestPc_of_ifid (hd : s.idex.valid = false) (hi : s.ifid.valid = true) : s.oldestPc = s.ifid.pc := by
  simp [State.oldestPc, hd, hi]

theorem State.oldestPc_of_empty (hd : s.idex.valid = false) (hi : s.ifid.valid = false) : s.oldestPc = s.pc := by
  simp [State.oldestPc, hd, hi]

end

/-- Decode and Fetch move words between the latches and change nothing that a program can see. -/
theorem State.frontEnd_programView {u : State} (hempty : u.idex.valid = false) :
    u.frontEnd.programView = u.programView := by
  have hview (p : Word) : u.frontEnd.viewAt p = u.viewAt p :=
    State.viewAt_congr (by simp) (by simp) (by simp) (by simp) p
  rw [State.programView_eq, State.programView_eq, hview]
  cases hi : u.ifid.valid with
  | true =>
    have hd := u.frontEnd_idex_of_ifid_valid hi
    rw [State.oldestPc_of_ifid hempty hi, State.oldestPc_of_idex (by rw [hd]; rfl), hd]
    rfl
  | false =>
    have hd : u.frontEnd.idex.valid = false := by rw [u.frontEnd_idex_of_ifid_empty hi, hempty]
    rw [State.oldestPc_of_empty hempty hi]
    obtain ⟨-, hnone, hstay⟩ | ⟨hlt, hzero, hnone, hclamp⟩ | ⟨-, -, hfetched, -⟩ := u.frontEnd_cases
    · rw [State.oldestPc_of_empty hd hnone, hstay]
    · rw [State.oldestPc_of_empty hd hnone, hclamp]
      exact State.settled_viewAt_bound (.inr ⟨hlt, hzero⟩)
    · rw [State.oldestPc_of_ifid hd (by rw [hfetched]), hfetched]

/-! ### Execute and the sequential machine -/

/-- The common path, seen by a program, is the write-back, the flags and the next instruction. -/
theorem State.viewAt_finishWrite (s : State) (p : Word) (rs : RegIdx) (v : Byte) (f : Flags) :
    (((s.viewAt p).writeReg rs v).withFlags f).advance = (s.finishWrite rs v f).viewAt (p + 1) := by
  unfold State.finishWrite State.writeReg
  split <;> rfl

/-- A store, seen by a program, is the write of the byte and the next instruction. -/
theorem State.viewAt_memWrite (s : State) (p : Word) (a : Int) (v : Byte) :
    ((s.viewAt p).memWrite a v).advance = (s.memWrite a v).invalidateIdex.viewAt (p + 1) := by
  unfold State.memWrite
  split <;> rfl

theorem State.sequentialExec_beqz (s : State) (p : Word) (rs rt : RegIdx) (imm : Int) :
    (s.viewAt p).sequentialExec (Instr.ofFields .beqz rs rt imm) =
      if s.readReg rs = 0 then s.viewAt (relativeTarget p imm) else (s.finishNoWrite flagsNop).viewAt (p + 1) := rfl

section
variable {s : State}

/-- On current snapshots a writing instruction does what the sequential machine does on live registers. -/
theorem exec_writing_sequential {op : Opcode} (hop : op ∈ writingOpcodes) {rs rt : RegIdx} (imm : Int)
    (h1 : s.op1 = s.readReg rs) (h2 : s.op2 = s.readReg rt) :
    ∃ u, exec (Instr.ofFields op rs rt imm) s = .next u ∧
      ∀ p, (s.viewAt p).sequentialExec (Instr.ofFields op rs rt imm) = u.viewAt (p + 1) := by
  fin_cases hop <;>
    exact ⟨_, rfl, fun p => by simp [Instr.ofFields, State.sequentialExec, State.viewAt_finishWrite, h1, h2]⟩

/-- Execute of a latch with current snapshots is one instruction of the sequential machine, which goes to the transfer's
target or to the next index. -/
theorem executeStage_sequential {u : State} (hv : s.idex.valid = true) (h1 : s.op1 = s.readReg s.idex.rs)
    (h2 : s.op2 = s.readReg s.idex.rt) (h : executeStage s = .next u) :
    (s.viewAt s.idex.pc).sequentialExec s.idex.instruction =
      u.viewAt (s.transferTarget.getD (s.idex.pc + 1)) := by
  rw [executeStage_valid hv, DecodeExecuteLatch.instruction] at h
  rw [DecodeExecuteLatch.instruction]
  by_cases hw : s.idex.opcode ∈ writingOpcodes
  · obtain ⟨_, hexec, hseq⟩ := exec_writing_sequential hw s.idex.imm h1 h2
    rw [hexec] at h
    cases h
    rw [hseq, State.transferTarget_of_writing hw, Option.getD_none]
  · cases hop : s.idex.opcode <;> rw [hop] at h hw
    case beqz =>
      rw [exec_beqz] at h
      rw [State.sequentialExec_beqz, State.transferTarget_of_beqz hv hop]
      split at h <;> cases h
      · next hz => rw [if_pos hz, if_pos hz]; rfl
      · next hz => rw [if_neg hz, if_neg hz]; rfl
    case br =>
      cases h
      rw [State.transferTarget_of_br hv hop, h1, h2]
      rfl
    case str =>
      cases h
      rw [State.transferTarget_of_str hop]
      exact s.viewAt_memWrite ..
    case reserved12 | reserved13 | reserved14 | reserved15 =>
      cases h
      rw [State.transferTarget_of_opcode_ne (by simp [hop]) (by simp [hop])]
      rfl
    all_goals simp at hw

/-- The snapshots of a current latch are the live registers (R93). -/
theorem State.SnapshotCurrent.operands (hs : s.SnapshotCurrent) (hv : s.idex.valid = true) :
    s.op1 = s.readReg s.idex.rs ∧ s.op2 = s.readReg s.idex.rt := by
  have hlatch := hs hv
  have hrs : s.idex.rs = rsOf s.idex.instr := congrArg DecodeExecuteLatch.rs hlatch
  have hrt : s.idex.rt = rtOf s.idex.instr := congrArg DecodeExecuteLatch.rt hlatch
  rw [hrs, hrt]
  exact ⟨congrArg DecodeExecuteLatch.valRs hlatch, congrArg DecodeExecuteLatch.valRt hlatch⟩

/-- The shadow record takes a word of the program, for IDEX holds one. -/
theorem State.Inv.snapshot_inv (hs : s.Inv) : s.snapshot.Inv where
  regZero := hs.regZero
  stores := hs.stores
  snapshot := hs.snapshot
  placed :=
    have ⟨hifid, hidex, _⟩ := hs.placed
    ⟨hifid, hidex, hidex⟩
  consecutive := hs.consecutive

variable {u : State}

/-- After Execute the oldest instruction is the one that the executed instruction goes to: a transfer has emptied IFID,
and without one what is in flight is consecutive (R83, R94). -/
theorem ExecuteEffect.programView_eq (h : ExecuteEffect s u) (hs : s.InFlightConsecutive) (hv : s.idex.valid = true)
    (hlt : s.idex.pc.toNat < 1024) :
    u.programView = (u.viewAt (s.transferTarget.getD (s.idex.pc + 1))).settled := by
  obtain ⟨-, hnext, hdrained⟩ := hs
  have hempty := h.idex_empty
  rw [State.programView_eq]
  cases ht : s.transferTarget with
  | some target =>
    obtain rfl := h.eq_redirect ht
    rw [State.oldestPc_of_empty hempty rfl]
    rfl
  | none =>
    obtain ⟨hifid, hpc⟩ := h.front_of_no_transfer ht
    rw [Option.getD_none]
    cases hi : s.ifid.valid with
    | true => rw [State.oldestPc_of_ifid hempty (by rw [hifid, hi]), hifid, hnext hv hi]
    | false =>
      obtain ⟨hbound, hend⟩ := hdrained hv hi
      rw [State.oldestPc_of_empty hempty (by rw [hifid, hi]), hpc, hbound]
      refine State.settled_viewAt_bound ?_
      by_cases hlast : s.idex.pc + 1 = 1024
      · exact .inl hlast
      · refine .inr ⟨by bv_omega, ?_⟩
        rw [State.ifetch, h.imem_eq]
        exact hend.resolve_left hlast

/-- Seen by a program, Execute of a valid latch is one step of the sequential machine. -/
theorem executeStage_programView (hs : s.Inv) (hv : s.idex.valid = true) (h : executeStage s = .next u) :
    u.programView = s.programView.sequentialStep.settled := by
  obtain ⟨-, hplaced, -⟩ := hs.placed
  obtain ⟨hlt, hfetch, hne⟩ := hplaced hv
  obtain ⟨h1, h2⟩ := hs.snapshot.operands hv
  have hinstr : s.idex.instruction = decode s.idex.instr :=
    (congrArg DecodeExecuteLatch.instruction (hs.snapshot hv)).trans (s.decodedLatch_instruction hne _)
  have hview : s.programView = s.viewAt s.idex.pc := by
    rw [State.programView_eq, State.oldestPc_of_idex hv,
      State.settled_viewAt_of_not_sentinel fun hz => hne (hfetch.symm.trans hz.2)]
  have hstep : (s.viewAt s.idex.pc).sequentialStep = (s.viewAt s.idex.pc).sequentialExec s.idex.instruction := by
    rw [State.sequentialStep, if_pos ((State.fetchEnabled_iff _).2 hlt), State.viewAt_pc, State.ifetch_viewAt, hfetch,
      hinstr]
  rw [hview, hstep, executeStage_sequential hv h1 h2 h]
  exact (executeStage_effect h).programView_eq hs.consecutive hv hlt

end

/-! ### The statements -/

/-- Settles O49: Decode and Fetch keep the program's view, and Execute of a valid latch moves it as one step of the
sequential machine does. -/
theorem pipelineRefinesSequentialMachine : Obligations.PipelineRefinesSequentialMachine := by
  intro s t hs h
  obtain ⟨u, hu, rfl⟩ := step_eq.1 h
  rw [State.frontEnd_programView (executeStage_effect hu).idex_empty]
  cases hv : s.idex.valid with
  | true => exact executeStage_programView (s := s.snapshot) hs.snapshot_inv hv hu
  | false =>
    rw [executeStage_empty (s := s.snapshot) hv] at hu
    cases hu
    rfl

/-- Settles O27: the fields Decode makes of a word describe its instruction, which Execute runs. -/
theorem stepRunsTheLatchedWord : Obligations.StepRunsTheLatchedWord :=
  ⟨fun s _ _ hw h => step_of_decodedLatch s hw h, fun _ h => step_of_idex_empty h⟩

/-- Settles O28: two cycles that execute nothing take the word through both latches. -/
theorem wordAtTheCounterRunsInTheThirdCycle : Obligations.WordAtTheCounterRunsInTheThirdCycle := by
  intro s hifid hidex hlt hw
  have hfetched : s.snapshot.frontEnd.ifid = { instr := s.ifetch s.pc.toNat, pc := s.pc, valid := true } := by
    obtain ⟨hoff, -⟩ | ⟨-, hzero, -⟩ | ⟨-, -, hfetched, -⟩ := s.snapshot.frontEnd_cases
    · exact absurd hlt (Nat.not_lt.2 hoff)
    · exact absurd hzero hw
    · exact hfetched
  have hempty : s.snapshot.frontEnd.idex.valid = false := by
    rw [s.snapshot.frontEnd_idex_of_ifid_empty hifid]
    exact hidex
  have hdecoded := s.snapshot.frontEnd.snapshot.frontEnd_idex_of_ifid_valid (congrArg FetchDecodeLatch.valid hfetched)
  rw [State.snapshot_ifid, hfetched] at hdecoded
  obtain ⟨v, hexec, hstep⟩ := step_of_decodedLatch _ hw hdecoded
  exact ⟨_, _, v, step_of_idex_empty hidex, hfetched, step_of_idex_empty hempty, hdecoded, hexec, hstep⟩

/-- Settles O29: without a transfer IFID survives Execute, and Decode reads the registers that the cycle ends with. -/
theorem decodeReadsWhatExecuteWrote : Obligations.DecodeReadsWhatExecuteWrote := by
  intro s t hv ht h
  obtain ⟨u, hu, rfl⟩ := step_effect h
  have hifid : u.ifid = s.ifid := (hu.front_of_no_transfer ht).1
  have hidex := u.frontEnd_idex_of_ifid_valid (by rw [hifid, hv])
  rw [hifid] at hidex
  exact ⟨hidex, congrArg DecodeExecuteLatch.valRs hidex⟩

/-- Settles O30: neither Execute nor the front end writes the shadow record. -/
theorem shadowHoldsTheLatchOfTheStart : Obligations.ShadowHoldsTheLatchOfTheStart := by
  intro s t h
  obtain ⟨u, hu, rfl⟩ := step_effect h
  rw [State.frontEnd_exs, hu.exs_eq, State.snapshot_exs]

/-- Settles O31: by the validity of the latch, and since every effect of Execute leaves it empty. -/
theorem executeEmptiesItsLatch : Obligations.ExecuteEmptiesItsLatch := by
  intro s t h
  refine ⟨fun hv => ?_, fun hv => ?_, (executeStage_effect h).idex_empty⟩
  · rw [executeStage_empty hv] at h
    cases h
    rfl
  · rw [← h, executeStage_valid hv]
    rfl

/-- Settles O32: the latch takes the fields of the word, which the codec's laws give as numbers. -/
theorem decodeFillsTheLatch : Obligations.DecodeFillsTheLatch := by
  intro s
  refine ⟨s.decodeStage_empty, fun hv => ?_⟩
  rw [s.decodeStage_valid hv]
  exact ⟨rfl, rfl, opcodeOf_code _, rsOf_val _, rtOf_immOf_toNat _, rfl, rfl, rfl, rfl, fun _ => rfl,
    ⟨fun _ => rfl, fun _ => rfl⟩, rfl, rfl, rfl⟩

/-- Settles O33: the three cases of Fetch, on the counter that Execute left. -/
theorem fetchUsesTheRedirectedCounter : Obligations.FetchUsesTheRedirectedCounter := by
  intro s t h
  obtain ⟨u, hu, rfl⟩ := step_effect h
  have hcases := u.frontEnd_cases
  have hword (n : Nat) : u.ifetch n = s.ifetch n := congrArg (Memory.read · n) hu.imem_eq
  rw [hu.pc_eq, State.fetchPc_snapshot, hword] at hcases
  obtain ⟨hoff, hnone, hstay⟩ | ⟨hlt, hzero, hnone, hclamp⟩ | ⟨hlt, hw, hfetched, hnext⟩ := hcases
  · rw [if_neg (Nat.not_lt.2 hoff)]
    exact ⟨hnone, hstay⟩
  · rw [if_pos hlt, if_pos hzero, hclamp]
    exact ⟨hnone, rfl⟩
  · rw [if_pos hlt, if_neg hw, hnext]
    exact ⟨hfetched, by bv_omega⟩

/-- Settles O34: Execute empties IDEX and Decode empties IFID, in this order within the cycle. -/
theorem latchesAreFreeWhenWritten : Obligations.LatchesAreFreeWhenWritten := by
  intro s
  obtain ⟨u, hu⟩ := executeStage_next s.snapshot
  exact ⟨u, hu, (executeStage_effect hu).idex_empty, u.decodeStage_ifid_empty, step_eq.2 ⟨u, hu, rfl⟩⟩

/-- Settles O35: the cycle of a transfer ends with IDEX empty, so the next one is the front end alone. -/
theorem takenTransferCostsOneEmptyCycle : Obligations.TakenTransferCostsOneEmptyCycle := by
  intro s t u target ht h h'
  obtain ⟨hempty, hfront⟩ := step_of_transfer ht h
  have hexs := shadowHoldsTheLatchOfTheStart s t h
  rw [step_of_idex_empty hempty] at h'
  cases h'
  refine ⟨by rw [hexs]; exact State.idex_valid_of_transfer ht, hempty, fun hv => ?_, by simp [hempty],
    fun r => by simp, ⟨fun a => by simp, fun a => by simp⟩, by simp⟩
  obtain ⟨-, hnone, -⟩ | ⟨-, -, hnone, -⟩ | ⟨-, -, hpc⟩ := hfront
  · rw [hnone] at hv; cases hv
  · rw [hnone] at hv; cases hv
  · exact hpc

/-- Settles O36: out of the program Fetch latches nothing, so the transfer's cycle leaves the machine idle. -/
theorem transferOutOfTheProgramEndsTheRun : Obligations.TransferOutOfTheProgramEndsTheRun := by
  intro s t u target ht hout h h'
  obtain ⟨hempty, hfront⟩ := step_of_transfer ht h
  have hend : t.ifid.valid = false ∧ t.pc = if 1024 ≤ target.toNat then target else 1024 := by
    obtain ⟨hoff, hnone, hpc⟩ | ⟨hlt, -, hnone, hpc⟩ | ⟨hlt, hw, -⟩ := hfront
    · exact ⟨hnone, by rw [if_pos hoff, hpc]⟩
    · exact ⟨hnone, by rw [if_neg (Nat.not_le.2 hlt), hpc]⟩
    · exact (hout.elim (Nat.not_le.2 hlt) hw).elim
  obtain ⟨hnone, hpc⟩ := hend
  have hidle : t.idle = true := by
    refine State.idle_iff.2 ⟨hnone, hempty, ?_⟩
    rw [hpc]
    split
    next hoff => exact hoff
    next => decide
  rw [step_of_idle hidle] at h'
  cases h'
  exact ⟨hidle, State.snapshot_terminated hidle, hpc⟩

/-- Settles O37: an idle machine takes the shadow snapshot of an empty latch, and nothing else happens. -/
theorem idleIsAFixedPoint : Obligations.IdleIsAFixedPoint :=
  ⟨fun s h => ⟨s.snapshot, step_of_idle h, State.snapshot_terminated h, rfl⟩, fun _ => State.terminated_iff.1⟩

/-- Settles O41: the front end writes no flag; STR and a transfer leave Execute's flags as they were. -/
theorem flagsChangeOnlyOnTheCommonPath : Obligations.FlagsChangeOnlyOnTheCommonPath := by
  intro s t h hne
  obtain ⟨u, hu, rfl⟩ := step_eq.1 h
  rw [State.frontEnd_flags] at hne
  obtain ⟨hv, ht⟩ := (executeStage_effect hu).of_flags_ne hne
  refine ⟨hv, fun hop => ?_, ht⟩
  rw [executeStage_str hv hop] at hu
  cases hu
  simp at hne

/-- Settles O47: Decode takes its snapshots after Execute, and nothing after it writes a register. -/
theorem snapshotsAreCurrentAfterEveryStep : Obligations.SnapshotsAreCurrentAfterEveryStep := by
  intro s t h
  obtain ⟨u, hu, rfl⟩ := step_effect h
  have hcurrent := State.frontEnd_snapshotCurrent hu.idex_empty
  exact ⟨hcurrent, hcurrent.operands⟩

/-- Settles O52: the three cases of Fetch, with the word it reads as the port's data. -/
theorem fetchTakesTheRomPortData : Obligations.FetchTakesTheRomPortData := by
  intro s t h
  obtain ⟨u, hu, rfl⟩ := step_eq.1 h
  exact ⟨u, hu, u.decodeStage.fetchStage_romPort u.decodeStage_ifid_empty⟩

end Sys2Proof.Machine


/-!
SUPPORT and proofs, family 41_arithmetic: what the common path with the register write enabled leaves, each flag as a
fact about numbers, and the statements that follow.
-/

namespace Sys2Proof.Machine

/-! ### The common path -/

section
variable (s : State) (rs : RegIdx) (v : Byte) (f : Flags)

theorem State.finishWrite_registerWritten : RegisterWritten s (s.finishWrite rs v f) rs v :=
  fun r => s.readReg_finishWrite rs r v f

theorem State.finishWrite_commonPathFrame : CommonPathFrame s (s.finishWrite rs v f) := by
  refine ⟨⟨fun a => ?memory, fun n => ?program⟩, ⟨?pc, ?ifid, ?exs⟩, ?latch⟩
  all_goals simp

end

/-! ### The flags -/

theorem zeroFlag_iff (result : Byte) : zeroFlag result = true ↔ result = 0 := decide_eq_true_iff

theorem negativeFlag_iff (result : Byte) : negativeFlag result = true ↔ 128 ≤ result.toNat :=
  BitVec.msb_eq_true_iff_two_mul_ge.trans (by omega)

/-- Without carry and overflow S is N (40_pipeline.md R79 to R81). -/
theorem resultFlags_flagsLogic (result : Byte) : ResultFlags (flagsLogic result) result :=
  ⟨rfl, rfl, negativeFlag_iff result, Bool.xor_false _, (zeroFlag_iff result).trans BitVec.toNat_eq⟩

section
variable (a b : Byte)

/-- Nine bits hold the sum of two bytes, and bit 8 of it is its 256 (R79). -/
theorem carryAdd_iff : carryAdd a b = true ↔ 256 ≤ a.toNat + b.toNat := by
  have hsum : (a.zeroExtend 9 + b.zeroExtend 9).toNat = a.toNat + b.toNat := by
    simp only [BitVec.zeroExtend, BitVec.toNat_add, BitVec.toNat_setWidth]
    omega
  have hmsb : carryAdd a b = (a.zeroExtend 9 + b.zeroExtend 9).msb := (BitVec.msb_eq_getLsbD_last _).symm
  rw [hmsb, BitVec.msb_eq_decide, hsum, decide_eq_true_iff]

/-- Nine bits hold the signed difference of two bytes, and bit 8 of it is its sign (R79). -/
theorem carrySub_iff : carrySub a b = true ↔ a.toInt < b.toInt := by
  have hdiff : (a.signExtend 9 - b.signExtend 9).toInt = a.toInt - b.toInt := by
    have ha : -128 ≤ a.toInt ∧ a.toInt < 128 := ⟨a.le_toInt, a.toInt_lt⟩
    have hb : -128 ≤ b.toInt ∧ b.toInt < 128 := ⟨b.le_toInt, b.toInt_lt⟩
    rw [BitVec.toInt_sub, BitVec.toInt_signExtend_of_le (by decide), BitVec.toInt_signExtend_of_le (by decide)]
    exact Int.bmod_eq_of_le (by omega) (by omega)
  have hmsb : carrySub a b = (a.signExtend 9 - b.signExtend 9).msb := (BitVec.msb_eq_getLsbD_last _).symm
  rw [hmsb, BitVec.msb_eq_toInt, hdiff, decide_eq_true_iff]
  omega

/-- The one overflow formula (R80): the operands agree in sign and the result does not. -/
theorem overflowFlag_iff (result : Byte) :
    overflowFlag a b result = true ↔ a.msb = b.msb ∧ result.msb ≠ a.msb := by
  rw [overflowFlag, BitVec.msb_and, BitVec.msb_xor, BitVec.msb_xor]
  generalize a.msb = x, b.msb = y, result.msb = z
  revert x y z
  decide

/-- The same formula on a difference (41_arithmetic.md R101): bytes of the lower half differ by a negative byte where the
difference borrows, bytes of the upper half by a non-negative one where it does not. -/
theorem overflowFlag_sub_iff : overflowFlag a b (a - b) = true ↔
    (a.toNat ≤ 127 ∧ b.toNat ≤ 127 ∧ a.toNat < b.toNat) ∨ (128 ≤ a.toNat ∧ 128 ≤ b.toNat ∧ b.toNat ≤ a.toNat) := by
  have hdiff : (a - b).toNat = (256 - b.toNat + a.toNat) % 256 := BitVec.toNat_sub ..
  rw [overflowFlag_iff, BitVec.msb_eq_decide, BitVec.msb_eq_decide, BitVec.msb_eq_decide, hdiff]
  simp only [ne_eq, decide_eq_decide]
  omega

end

/-! ### The difference -/

/-- Bytes subtract as numbers modulo 256 (41_arithmetic.md R103). -/
theorem ofInt_toNat_sub_toNat (a b : Byte) : BitVec.ofInt 8 (a.toNat - b.toNat) = a - b := by
  have hb := b.isLt
  apply BitVec.eq_of_toNat_eq
  rw [BitVec.toNat_ofInt, BitVec.toNat_sub]
  omega

/-! ### The statements -/

/-- Settles O12: ADD is the common path on the sum; a word of opcode 0 that is not the sentinel's is well-formed. -/
theorem addEffect : Obligations.AddEffect := by
  refine ⟨fun rs rt => ?_, fun s rs rt => ⟨_, rfl, ?_⟩⟩
  · split
    next h => obtain ⟨rfl, rfl⟩ := h; rfl
    next h => exact decodeEncodeInstruction (.add rs rt) ((wellFormed_ofFields .add rs rt 0).2 ⟨nofun, fun hz => h hz.2⟩)
  · simp only [← BitVec.add_def]
    exact ⟨s.finishWrite_registerWritten _ _ _, zeroFlag_iff _, rfl, carryAdd_iff .., overflowFlag_iff .., rfl,
      s.finishWrite_commonPathFrame ..⟩

/-- Settles O13: SUB is the common path on the difference. -/
theorem subEffect : Obligations.SubEffect := by
  refine ⟨fun rs rt => decodeEncodeInstruction (.sub rs rt) rfl, fun s rs rt => ⟨_, rfl, ?_⟩⟩
  simp only [ofInt_toNat_sub_toNat]
  exact ⟨s.finishWrite_registerWritten _ _ _, zeroFlag_iff _, rfl, carrySub_iff .., overflowFlag_sub_iff .., rfl,
    s.finishWrite_commonPathFrame ..⟩

/-- Settles O14: MUL is the common path on the product. -/
theorem mulEffect : Obligations.MulEffect := by
  refine ⟨fun rs rt => decodeEncodeInstruction (.mul rs rt) rfl, fun s rs rt => ⟨_, rfl, ?_⟩⟩
  simp only [BitVec.ofNat_mul, BitVec.ofNat_toNat, BitVec.setWidth_eq]
  exact ⟨s.finishWrite_registerWritten _ _ _, resultFlags_flagsLogic _, s.finishWrite_commonPathFrame ..⟩

end Sys2Proof.Machine

/-!
SUPPORT and proofs, family 42_move_logic_shift: the byte of an immediate as a number, what a conjunction with it keeps of
the other operand, and the statements that follow.
-/

namespace Sys2Proof.Machine

/-! ### The immediate as a byte -/

section
variable {imm : Int}

theorem immByte_toNat_of_nonneg (h0 : 0 ≤ imm) (hhi : imm ≤ 31) : (immByte imm).toNat = imm.toNat := by
  rw [immByte, BitVec.toNat_ofInt]
  omega

/-- The sign extension of R53 makes a negative immediate one of the 32 highest byte values. -/
theorem immByte_toNat_of_neg (hlo : -32 ≤ imm) (hneg : imm < 0) : (immByte imm).toNat = (256 + imm).toNat := by
  rw [immByte, BitVec.toNat_ofInt]
  omega

/-- The values that a sign-extended immediate can take (R110). -/
theorem immByte_range (hlo : -32 ≤ imm) (hhi : imm ≤ 31) : (immByte imm).toNat ≤ 31 ∨ 224 ≤ (immByte imm).toNat := by
  rcases lt_or_ge imm 0 with hneg | h0
  · right
    rw [immByte_toNat_of_neg hlo hneg]
    omega
  · left
    rw [immByte_toNat_of_nonneg h0 hhi]
    omega

/-! ### The conjunction with it -/

/-- A conjunction is at most its second operand, here below 32, so bits 7 to 5 are clear (R111). -/
theorem and_immByte_lt (a : Byte) (h0 : 0 ≤ imm) (hhi : imm ≤ 31) : (a &&& immByte imm).toNat < 32 := by
  calc (a &&& immByte imm).toNat
      = a.toNat &&& (immByte imm).toNat := BitVec.toNat_and ..
    _ ≤ (immByte imm).toNat := Nat.and_le_right
    _ = imm.toNat := immByte_toNat_of_nonneg h0 hhi
    _ < 32 := by omega

/-- Bits 7 to 5 of a negative immediate are all set, so the conjunction keeps those of the other operand (R111). -/
theorem and_immByte_div (a : Byte) (hlo : -32 ≤ imm) (hneg : imm < 0) :
    (a &&& immByte imm).toNat / 32 = a.toNat / 32 := by
  have hhigh : (immByte imm).toNat / 32 = 7 := by
    rw [immByte_toNat_of_neg hlo hneg]
    omega
  calc (a &&& immByte imm).toNat / 32
      = (a.toNat &&& (immByte imm).toNat) / 2 ^ 5 := by rw [BitVec.toNat_and]
    _ = a.toNat / 32 &&& (immByte imm).toNat / 32 := Nat.and_div_two_pow ..
    _ = a.toNat / 32 &&& 7 := by rw [hhigh]
    _ = a.toNat / 32 % 8 := Nat.and_two_pow_sub_one_eq_mod _ 3
    _ = a.toNat / 32 := Nat.mod_eq_of_lt (by have := a.isLt; omega)

end

/-! ### The statements -/

/-- Settles O16: ANDI is the common path on the conjunction with the immediate's byte. -/
theorem andiEffect : Obligations.AndiEffect := by
  refine ⟨fun rs imm hlo hhi => decodeEncodeInstruction (.andi rs imm) ((immInRange_iff imm).2 ⟨hlo, hhi⟩),
    fun s rs imm => ⟨_, rfl, ?_⟩⟩
  exact ⟨s.finishWrite_registerWritten _ _ _, resultFlags_flagsLogic _, s.finishWrite_commonPathFrame ..,
    and_immByte_lt s.op1, and_immByte_div s.op1⟩

/-- Settles O15: MOVI is the common path on the immediate's byte. -/
theorem moviEffect : Obligations.MoviEffect := by
  refine ⟨fun rs imm hlo hhi => decodeEncodeInstruction (.movi rs imm) ((immInRange_iff imm).2 ⟨hlo, hhi⟩),
    fun _ => immByte_range, fun s rs imm => ⟨_, rfl, ?_⟩⟩
  exact ⟨s.finishWrite_registerWritten _ _ _, resultFlags_flagsLogic _, s.finishWrite_commonPathFrame ..⟩

/-- Settles O17: EOR is the common path on the exclusive or of the operands. -/
theorem eorEffect : Obligations.EorEffect := by
  refine ⟨fun rs rt => decodeEncodeInstruction (.eor rs rt) rfl, fun s rs rt => ⟨_, rfl, ?_⟩⟩
  exact ⟨s.finishWrite_registerWritten _ _ _, resultFlags_flagsLogic _, s.finishWrite_commonPathFrame ..,
    fun _ _ => BitVec.getLsbD_xor⟩

end Sys2Proof.Machine

/-!
SUPPORT and proofs, family other: the statements that cut across the families above. The sections follow the spec: the
codec, reset and loading, the shifts, the data store, control transfers and reserved words, the status register, and the
whole machine.
-/

namespace Sys2Proof

/-! ### The codec -/

/-- The sentinel is no row applied to fields (30_encoding.md R58). -/
theorem Instr.ofFields_ne_sentinel (op : Opcode) (rs rt : RegIdx) (imm : Int) :
    Instr.ofFields op rs rt imm ≠ .sentinel := by
  cases op <;> nofun

theorem decode_eq_sentinel_iff (w : Word) : decode w = .sentinel ↔ w = 0 := by
  constructor
  · intro h
    by_contra hw
    rw [decode_of_ne_zero hw] at h
    exact Instr.ofFields_ne_sentinel _ _ _ _ h
  · rintro rfl
    rfl

end Sys2Proof

namespace Sys2Proof.Machine

/-- Settles O6: no code from 12 up is one of the immediate class. -/
theorem reservedOpcodesDecodeAsRegisters : Obligations.ReservedOpcodesDecodeAsRegisters := by
  intro w hw
  have hclass : w.toNat / 4096 ∉ [3, 4, 5, 8, 9, 10, 11] := by
    simp only [List.mem_cons, List.not_mem_nil, or_false]
    omega
  have hlow := rtOf_immOf_toNat w
  rw [if_neg hclass] at hlow
  exact ⟨opcodeOf_code w, rsOf_val w, hlow⟩

/-- Settles O7: of Fetch's three cases only the one on a word other than 0 leaves IFID valid. -/
theorem sentinelIsNeverLatched : Obligations.SentinelIsNeverLatched := by
  refine ⟨decode_eq_sentinel_iff, fun s t h hv => ?_⟩
  obtain ⟨u, -, rfl⟩ := step_eq.1 h
  obtain ⟨-, hnone, -⟩ | ⟨-, -, hnone, -⟩ | ⟨-, hw, hfetched, -⟩ := u.frontEnd_cases
  · rw [hnone] at hv; cases hv
  · rw [hnone] at hv; cases hv
  · rw [hfetched]; exact hw

/-- Settles O1: each word and each instruction is a literal, so both directions of the codec compute. -/
theorem workedWordsDecode : Obligations.WorkedWordsDecode := by
  unfold Obligations.WorkedWordsDecode
  decide

/-! ### Reset and loading -/

/-- What a list of values placed from index `lo` upward reads as. -/
theorem Memory.read_ofList {w : Nat} (l : List (BitVec w)) (lo a : Nat) :
    Memory.read (Memory.ofList lo l) a = if lo ≤ a then l.getD (a - lo) 0 else 0 := by
  induction l generalizing lo with
  | nil => simp [Memory.ofList]
  | cons v l ih =>
    have hread : Memory.read (Memory.ofList lo (v :: l)) a =
        if lo = a then v else Memory.read (Memory.ofList (lo + 1) l) a := by
      rw [Memory.ofList]
      split
      next hv =>
        split
        next h => subst h hv; rw [ih, if_neg (by omega)]; rfl
        next => rfl
      next => rfl
    rw [hread, ih]
    obtain h | rfl | h := lt_trichotomy lo a
    · rw [if_neg (by omega), if_pos (by omega), if_pos (by omega), show a - lo = a - (lo + 1) + 1 by omega]
      rfl
    · simp
    · rw [if_neg (by omega), if_neg (by omega), if_neg (by omega)]

theorem State.ifetch_loadProgram (s : State) (program : List Word) (a : Nat) :
    (s.loadProgram program).ifetch a = if a < 1024 then program.getD a 0 else 0 := by
  rw [State.ifetch, State.loadProgram, State.withImem_imem, Memory.read_ofList, if_pos (Nat.zero_le a),
    List.getD_eq_getElem?_getD, List.getElem?_take, List.getD_eq_getElem?_getD, Nat.sub_zero]
  split <;> rfl

theorem State.readReg_reset (r : RegIdx) : State.reset.readReg r = 0 := by
  simp [State.readReg, State.reset]

theorem State.memRead_reset (a : Int) : State.reset.memRead a = 0 := by
  simp [State.memRead, State.reset]

/-- Settles O11: what a loaded list reads as, cut at the 1024 entries of the store. -/
theorem loaderPlacesTheProgram : Obligations.LoaderPlacesTheProgram :=
  fun s program => ⟨s.ifetch_loadProgram program, rfl⟩

/-- Settles O10: nothing is in flight at reset, and the loader places a canonical store. -/
theorem loadedProgramMeetsInvariant : Obligations.LoadedProgramMeetsInvariant := fun program => {
  regZero := rfl
  stores := ⟨State.reset.loadProgram_wf program, rfl⟩
  snapshot := nofun
  placed := ⟨nofun, nofun, nofun⟩
  consecutive := ⟨nofun, nofun, nofun⟩ }

/-- Settles O9: reset is reset with the empty program loaded. -/
theorem resetMeetsInvariant : Obligations.ResetMeetsInvariant := loadedProgramMeetsInvariant []

/-- Settles O8: the clock edge answers `State.reset`, whose fields are the values. -/
theorem resetValues : Obligations.ResetValues := fun _ =>
  ⟨State.reset, rfl, State.readReg_reset, rfl, rfl, rfl, fun _ => rfl, State.memRead_reset, rfl, rfl, rfl, rfl⟩

/-! ### The shifts -/

section
variable (v : Byte) {n : Int}

/-- Multiplication by a power of two modulo 256 is the bit shift, whatever the amount (42_move_logic_shift.md R113). -/
theorem shiftLeft_of_nonneg (h : 0 ≤ n) : shiftLeft v n = v <<< n.toNat := by
  rw [shiftLeft, if_neg (Int.not_lt.2 h)]
  apply BitVec.eq_of_toNat_eq
  rw [BitVec.toNat_ofNat, BitVec.toNat_shiftLeft, Nat.shiftLeft_eq]

/-- Floor division by a power of two is the arithmetic bit shift, whatever the amount (R114). -/
theorem shiftRightArith_of_nonneg (h : 0 ≤ n) : shiftRightArith v n = v.sshiftRight n.toNat := by
  have hfloor : Int.fdiv v.toInt (2 ^ n.toNat) = (v.sshiftRight n.toNat).toInt := by
    rw [BitVec.toInt_sshiftRight, Int.shiftRight_eq_div_pow, Int.fdiv_eq_ediv_of_nonneg _ (by positivity)]
    norm_cast
  rw [shiftRightArith, if_neg (Int.not_lt.2 h), hfloor, BitVec.ofInt_toInt]

/-- From 8 on an arithmetic shift leaves nothing of a byte but its sign. -/
theorem sshiftRight_of_le {k : Nat} (h : 8 ≤ k) : v.sshiftRight k = if v.msb then 0xFF else 0 := by
  split
  next hsign => rw [BitVec.sshiftRight_eq_of_msb_true hsign, BitVec.ushiftRight_eq_zero h]; rfl
  next hsign => rw [BitVec.sshiftRight_eq_of_msb_false (by simpa using hsign), BitVec.ushiftRight_eq_zero h]; rfl

/-- SAL's result in the three ranges of the amount (R113, R115, decision D4). -/
theorem shiftLeft_eq (n : Int) : shiftLeft v n =
    if n < 0 then Config.shiftNeg .sal v n else if n < 8 then v <<< n.toNat else 0 := by
  split
  next h => exact if_pos h
  next h =>
    rw [shiftLeft_of_nonneg v (by omega)]
    split
    next => rfl
    next h8 => exact BitVec.shiftLeft_eq_zero (by omega)

/-- SAR's result in the three ranges of the amount (R114, R115, decision D4). -/
theorem shiftRightArith_eq (n : Int) : shiftRightArith v n =
    if n < 0 then Config.shiftNeg .sar v n else if n < 8 then v.sshiftRight n.toNat
    else if v.msb then 0xFF else 0 := by
  split
  next h => exact if_pos h
  next h =>
    rw [shiftRightArith_of_nonneg v (by omega)]
    split
    next => rfl
    next h8 => exact sshiftRight_of_le v (by omega)

end

/-- Settles O18: SAL is the common path on the shifted operand. -/
theorem salEffect : Obligations.SalEffect := by
  refine ⟨fun rs imm hlo hhi => decodeEncodeInstruction (.sal rs imm) ((immInRange_iff imm).2 ⟨hlo, hhi⟩),
    fun s rs imm => ⟨_, rfl, ?_⟩⟩
  rw [← shiftLeft_eq]
  exact ⟨s.finishWrite_registerWritten _ _ _, resultFlags_flagsLogic _, s.finishWrite_commonPathFrame ..⟩

/-- Settles O19: SAR is the common path on the shifted operand. -/
theorem sarEffect : Obligations.SarEffect := by
  refine ⟨fun rs imm hlo hhi => decodeEncodeInstruction (.sar rs imm) ((immInRange_iff imm).2 ⟨hlo, hhi⟩),
    fun s rs imm => ⟨_, rfl, ?_⟩⟩
  rw [← shiftRightArith_eq]
  exact ⟨s.finishWrite_registerWritten _ _ _, resultFlags_flagsLogic _, s.finishWrite_commonPathFrame ..⟩

/-! ### The data store -/

theorem dataAddrInRange_iff_le (a : Int) : dataAddrInRange a = true ↔ 0 ≤ a ∧ a ≤ 2047 :=
  (dataAddrInRange_iff a).trans (by omega)

section
variable (s : State) (a b : Int) (v : Byte)

/-- `MemRead` with its range written out (20_memory.md R32). -/
theorem State.memRead_eq : s.memRead a = if 0 ≤ a ∧ a ≤ 2047 then Memory.read s.dmem a.toNat else 0 := by
  simp only [State.memRead, dataAddrInRange_iff_le]

/-- The law of a store with its range written out (R33). -/
theorem State.memRead_memWrite_eq :
    (s.memWrite a v).memRead b = if b = a ∧ 0 ≤ a ∧ a ≤ 2047 then v else s.memRead b := by
  simp only [State.memRead_memWrite, dataAddrInRange_iff_le]

theorem State.memRead_outside (h : ¬(0 ≤ a ∧ a ≤ 2047)) : s.memRead a = 0 := by
  rw [State.memRead_eq, if_neg h]

end

/-- What Execute leaves of a valid latch with LDR: the byte at the immediate in the source register (43_memory_ops.md
R120). -/
theorem executeStage_ldr {s : State} (hv : s.idex.valid = true) (hop : s.idex.opcode = .ldr) :
    executeStage s = .next (s.finishWrite s.idex.rs (s.memRead s.idex.imm) (flagsLogic (s.memRead s.idex.imm))) := by
  rw [executeStage_valid hv, DecodeExecuteLatch.instruction, hop]
  rfl

/-- Settles O20: LDR is the common path on the byte that `MemRead` gives. -/
theorem ldrEffect : Obligations.LdrEffect := by
  refine ⟨fun rs imm hlo hhi => decodeEncodeInstruction (.ldr rs imm) ((immInRange_iff imm).2 ⟨hlo, hhi⟩),
    fun s rs imm => ⟨_, rfl, ?_⟩⟩
  rw [← State.memRead_eq]
  exact ⟨s.finishWrite_registerWritten _ _ _, resultFlags_flagsLogic _, s.finishWrite_commonPathFrame ..⟩

/-- Settles O21: STR is one `MemWrite` of the live register, which touches no other field. -/
theorem strEffect : Obligations.StrEffect := by
  refine ⟨fun rs imm hlo hhi => decodeEncodeInstruction (.str rs imm) ((immInRange_iff imm).2 ⟨hlo, hhi⟩),
    fun s rs imm => ⟨_, rfl, fun a => s.memRead_memWrite_eq imm a _, ?_⟩⟩
  refine ⟨fun r => ?registers, ?flags, fun n => ?program, ⟨?pc, ?ifid, ?exs⟩, ?latch⟩
  all_goals simp

/-- Settles O22: the law of a store, read back through LDR's register write. -/
theorem loadSeesTheStore : Obligations.LoadSeesTheStore := by
  intro s rs rd a
  refine ⟨_, _, rfl, rfl, ?_⟩
  rw [State.readReg_finishWrite, State.memRead_invalidateIdex, State.memRead_memWrite_eq]
  by_cases hrd : rd = 0
  · rw [if_neg (by simp [hrd]), if_pos hrd, hrd, State.readReg_zero]
  · rw [if_pos ⟨rfl, hrd⟩, if_neg hrd]
    by_cases ha : 0 ≤ a ∧ a ≤ 2047
    · rw [if_pos ⟨rfl, ha⟩, if_pos ha]
    · rw [if_neg fun h => ha h.2, if_neg ha, s.memRead_outside a ha]

/-- Settles O45: a latch with current snapshots holds a word's immediate, so the RAM port's write, if any, is below
32. -/
theorem dataAboveThirtyOneIsOutOfReach : Obligations.DataAboveThirtyOneIsOutOfReach := by
  intro s t hs h a ha
  rw [(dataStoreFollowsTheRamPort s t h).1 a, if_neg]
  rintro ⟨hwrite, haddr⟩
  obtain ⟨⟨hv, -⟩, hrange⟩ := s.ramPort_writeEnable_iff.1 hwrite
  have himm : s.idex.imm = immOf s.idex.instr := congrArg DecodeExecuteLatch.imm (hs hv)
  have hle : immOf s.idex.instr ≤ 31 := ((immInRange_iff _).1 (immInRange_immOf _)).2
  rw [s.ramPort_addr_toNat hrange] at haddr
  omega

/-- Settles O51: LDR loads what `MemRead` gives, which is what the port carries. -/
theorem loadTakesTheRamPortData : Obligations.LoadTakesTheRamPortData := by
  intro s t hv hop h
  rw [State.ramPort_readData]
  refine ⟨fun r => ?_, s.memRead_outside _⟩
  obtain ⟨u, hu, rfl⟩ := step_eq.1 h
  rw [executeStage_ldr (s := s.snapshot) hv hop] at hu
  cases hu
  rw [State.readReg_frontEnd]
  exact s.snapshot.finishWrite_registerWritten _ _ _ r

/-! ### Control transfers, reserved words, the sentinel -/

section
variable (s : State) (f : Flags)

theorem State.redirect_transferFrame (target : Word) : TransferFrame s (s.redirect target) :=
  ⟨fun _ => rfl, ⟨fun _ => rfl, fun _ => rfl⟩, rfl, rfl, rfl, rfl⟩

theorem State.finishNoWrite_commonPathFrame : CommonPathFrame s (s.finishNoWrite f) :=
  ⟨⟨fun _ => rfl, fun _ => rfl⟩, ⟨rfl, rfl, rfl⟩, rfl⟩

/-- What an execution with no result leaves (40_pipeline.md R75, decision D2). -/
theorem State.finishNoWrite_flagsNop : SameRegisters s (s.finishNoWrite flagsNop) ∧
    ResultFlags (s.finishNoWrite flagsNop).flags Config.nopResult ∧ CommonPathFrame s (s.finishNoWrite flagsNop) :=
  ⟨fun _ => rfl, resultFlags_flagsLogic _, s.finishNoWrite_commonPathFrame flagsNop⟩

end

/-- BEQZ's target as a number (44_branch.md R130, decision D7). -/
theorem relativeTarget_toNat (p : Word) (imm : Int) :
    ((relativeTarget p imm).toNat : Int) = (p.toNat + 1 + imm) % 65536 := by
  rw [relativeTarget, BitVec.toNat_ofInt]
  omega

/-- BR's target as a number (R131). -/
theorem pairTarget_toNat (hi lo : Byte) : (pairTarget hi lo).toNat = hi.toNat * 256 + lo.toNat := by
  rw [pairTarget, BitVec.toNat_append, ← Nat.shiftLeft_add_eq_or_of_lt lo.isLt, Nat.shiftLeft_eq]

/-- Settles O23: on a register that reads 0 BEQZ is a redirect, on any other the common path with no result. -/
theorem beqzEffect : Obligations.BeqzEffect := by
  refine ⟨fun rs imm hlo hhi => decodeEncodeInstruction (.beqz rs imm) ((immInRange_iff imm).2 ⟨hlo, hhi⟩),
    fun s rs imm => ?_⟩
  have hexec := exec_beqz rs 0 imm s
  by_cases hz : s.readReg rs = 0
  · rw [if_pos hz] at hexec
    refine ⟨_, hexec, ?_⟩
    rw [if_pos hz]
    exact ⟨relativeTarget_toNat _ _, s.redirect_transferFrame _⟩
  · rw [if_neg hz] at hexec
    refine ⟨_, hexec, ?_⟩
    rw [if_neg hz]
    exact s.finishNoWrite_flagsNop

/-- Settles O24: BR is a redirect to the pair of its operands. -/
theorem brEffect : Obligations.BrEffect :=
  ⟨fun rs rt => decodeEncodeInstruction (.br rs rt) rfl,
    fun s _ _ => ⟨_, rfl, pairTarget_toNat _ _, s.redirect_transferFrame _⟩⟩

/-- Settles O25: each of the four is the common path with no result. -/
theorem reservedEffect : Obligations.ReservedEffect := by
  intro s rs rt i hi
  have hexec : exec i s = .next (s.finishNoWrite flagsNop) := by
    fin_cases hi <;> rfl
  exact ⟨_, hexec, s.finishNoWrite_flagsNop⟩

/-- Settles O26: the sentinel's effect is `State.endOfProgram`, which is what Fetch does on the all-zero word. -/
theorem sentinelEffect : Obligations.SentinelEffect := fun s =>
  ⟨s.endOfProgram, rfl, rfl, fun _ => rfl, rfl, ⟨fun _ => rfl, fun _ => rfl⟩, rfl, rfl, rfl,
    fun hpc hw => s.fetchStage_sentinel (s.fetchEnabled_iff.2 hpc) hw⟩

/-! ### The status register -/

/-- `000CVNSZ` as a number (10_state.md R14). -/
theorem Flags.toByte_toNat (f : Flags) : f.toByte.toNat =
    16 * f.c.toNat + 8 * f.v.toNat + 4 * f.n.toNat + 2 * f.s.toNat + f.z.toNat := by
  obtain ⟨c, v, n, s, z⟩ := f
  revert c v n s z
  decide

/-- Settles O46: the packed byte is the status register. -/
theorem statusByteLayout : Obligations.StatusByteLayout := fun s => s.flags.toByte_toNat

/-! ### No instruction reads a flag -/

section
variable (s : State) (f : Flags)

/-- The common path overwrites the flags, whatever they were (R76). -/
theorem State.finishWrite_withFlags (rs : RegIdx) (v : Byte) (g : Flags) :
    (s.withFlags f).finishWrite rs v g = s.finishWrite rs v g := by
  unfold State.finishWrite State.writeReg
  split <;> rfl

theorem State.memWrite_withFlags (a : Int) (v : Byte) :
    (s.withFlags f).memWrite a v = (s.memWrite a v).withFlags f := by
  unfold State.memWrite
  split <;> rfl

theorem State.decodeStage_withFlags : (s.withFlags f).decodeStage = s.decodeStage.withFlags f := by
  unfold State.decodeStage
  rw [apply_ite (State.withFlags · f)]
  rfl

theorem State.fetchStage_withFlags : (s.withFlags f).fetchStage = s.fetchStage.withFlags f := by
  unfold State.fetchStage
  rw [apply_ite (State.withFlags · f), apply_ite (State.withFlags · f)]
  rfl

theorem State.frontEnd_withFlags : (s.withFlags f).frontEnd = s.frontEnd.withFlags f := by
  rw [State.frontEnd, State.decodeStage_withFlags, State.fetchStage_withFlags, State.frontEnd]

/-- A writing instruction computes its result and its flags without the flags before it. -/
theorem exec_writing_withFlags {op : Opcode} (hop : op ∈ writingOpcodes) (rs rt : RegIdx) (imm : Int) :
    exec (Instr.ofFields op rs rt imm) (s.withFlags f) = exec (Instr.ofFields op rs rt imm) s := by
  fin_cases hop <;> exact congrArg Host.Outcome.next (s.finishWrite_withFlags f ..)

variable {s}

/-- Other flags before an execution give at most other flags after it. -/
theorem exec_withFlags {op : Opcode} {rs rt : RegIdx} {imm : Int} {u : State}
    (h : exec (Instr.ofFields op rs rt imm) s = .next u) :
    ∃ g, exec (Instr.ofFields op rs rt imm) (s.withFlags f) = .next (u.withFlags g) := by
  by_cases hw : op ∈ writingOpcodes
  · exact ⟨u.flags, (exec_writing_withFlags s f hw rs rt imm).trans h⟩
  · cases op
    case beqz =>
      rw [exec_beqz] at h ⊢
      rw [State.readReg_withFlags]
      split at h
      next hz => rw [if_pos hz]; cases h; exact ⟨f, rfl⟩
      next hz => rw [if_neg hz]; cases h; exact ⟨flagsNop, rfl⟩
    case br => cases h; exact ⟨f, rfl⟩
    case str =>
      cases h
      exact ⟨f, congrArg (fun m => Host.Outcome.next (State.invalidateIdex m)) (s.memWrite_withFlags f imm _)⟩
    case reserved12 | reserved13 | reserved14 | reserved15 => cases h; exact ⟨flagsNop, rfl⟩
    all_goals simp at hw

theorem executeStage_withFlags {u : State} (h : executeStage s = .next u) :
    ∃ g, executeStage (s.withFlags f) = .next (u.withFlags g) := by
  cases hv : s.idex.valid with
  | true =>
    rw [executeStage_valid hv] at h
    rw [executeStage_valid (s := s.withFlags f) hv]
    exact exec_withFlags f h
  | false =>
    rw [executeStage_empty hv] at h
    cases h
    exact ⟨f, executeStage_empty (s := s.withFlags f) hv⟩

end

/-- Settles O42: each stage carries the flags along without reading them. -/
theorem flagsNeverSteer : Obligations.FlagsNeverSteer := by
  intro s t f h
  obtain ⟨u, hu, rfl⟩ := step_eq.1 h
  obtain ⟨g, hg⟩ := executeStage_withFlags f hu
  refine ⟨(u.withFlags g).frontEnd, step_eq.2 ⟨u.withFlags g, hg, rfl⟩, ?_⟩
  rw [State.frontEnd_withFlags]
  rfl

/-! ### Every cycle answers -/

/-- Settles O38: reset answers the reset state, and without it Execute answers on every instruction. -/
theorem stepAlwaysAnswers : Obligations.StepAlwaysAnswers := by
  intro s reset
  cases reset with
  | true => exact ⟨State.reset, rfl, nofun⟩
  | false =>
    obtain ⟨u, hu⟩ := executeStage_next s.snapshot
    have hstep := step_eq.2 ⟨u, hu, rfl⟩
    exact ⟨u.frontEnd, hstep, fun _ => hstep⟩

/-! ### A word placed for the next step -/

section
variable (s : State) {w : Word}

/-- The word is placed where Fetch reads next, inside the store. -/
theorem State.placeWord_at_counter :
    (s.placeWord w).pc.toNat < 1024 ∧ (s.placeWord w).ifetch (s.placeWord w).pc.toNat = w := by
  constructor
  · simp only [State.placeWord, State.flush_pc, State.withImem_pc, State.withPc_pc]
    split
    next hon => exact s.fetchEnabled_iff.1 hon
    next => decide
  · simp [State.placeWord, State.ifetch, Memory.read_write]

/-- A cycle on the sentinel with nothing in flight ends in an idle machine with the counter at the bound (40_pipeline.md
R87, R89). -/
theorem step_of_sentinel_at_counter {s t : State} (hifid : s.ifid.valid = false) (hidex : s.idex.valid = false)
    (hpc : s.pc.toNat < 1024) (hw : s.ifetch s.pc.toNat = 0) (h : step s = .next t) :
    t.idle = true ∧ t.pc.toNat = 1024 := by
  rw [step_of_idex_empty hidex] at h
  cases h
  obtain ⟨hoff, -⟩ | ⟨-, -, hnone, hclamp⟩ | ⟨-, hother, -⟩ := s.snapshot.frontEnd_cases
  · exact absurd hpc (Nat.not_lt.2 hoff)
  · refine ⟨State.idle_iff.2 ⟨hnone, ?_, by rw [hclamp]; decide⟩, by rw [hclamp]; rfl⟩
    rw [s.snapshot.frontEnd_idex_of_ifid_empty hifid]
    exact hidex
  · exact absurd hw hother

/-- The front end takes a placed word into IDEX, with the registers as they stand (R85, R87). -/
theorem State.readyToRun_idex (hw : w ≠ 0) :
    (s.readyToRun w).idex = (s.readyToRun w).decodedLatch w (s.placeWord w).pc := by
  obtain ⟨hpc, hread⟩ := s.placeWord_at_counter (w := w)
  have hfetched : (s.placeWord w).fetchStage.ifid = { instr := w, pc := (s.placeWord w).pc, valid := true } := by
    rw [State.fetchStage_word _ ((State.fetchEnabled_iff _).2 hpc) (by rwa [hread]), hread]
    rfl
  have hidex := (s.placeWord w).fetchStage.frontEnd_idex_of_ifid_valid (congrArg FetchDecodeLatch.valid hfetched)
  rw [hfetched] at hidex
  rw [State.readyToRun, if_neg hw]
  exact hidex

end

/-- Settles O50: the sentinel waits in the store for Fetch; any other word waits in IDEX, whose word the shadow record
takes. -/
theorem placedWordRunsNext : Obligations.PlacedWordRunsNext := by
  intro s t w hlt h
  have hplaced : s.withFetchWord 16 w = s.readyToRun (BitVec.ofNat 16 w) := by
    rw [State.withFetchWord, Nat.mod_eq_of_lt (by omega)]
  rw [hplaced] at h ⊢
  split
  next hw =>
    subst hw
    obtain ⟨hpc, hread⟩ := s.placeWord_at_counter (w := 0)
    exact step_of_sentinel_at_counter (s := s.placeWord 0) rfl rfl hpc hread h
  next hw =>
    have hne : BitVec.ofNat 16 w ≠ 0 := fun hzero => hw (by bv_omega)
    have hidex := s.readyToRun_idex hne
    rw [shadowHoldsTheLatchOfTheStart _ t h, hidex]
    exact ⟨rfl, rfl, _, rfl⟩

end Sys2Proof.Machine
